-- ==== Sys2Proof/Word.lean ====
section
/-! DEFINITION. The word types of the block and the level of a line (R9, R10 of spec/00_scope.md). -/

namespace Sys2Proof

/-- One level of a line, one bit (R9): `false` is low (0), `true` is high (1). -/
abbrev Level := Bool

/-- The low level, written `0` in the rules (R9). -/
abbrev Level.low : Level := false

/-- The high level, written `1` in the rules (R9). -/
abbrev Level.high : Level := true

/-- An 8-bit value of a frame (R25, R51). -/
abbrev Byte := BitVec 8

/-- The 32-bit queue word ENTRY32 (R76). -/
abbrev Entry := BitVec 32

/-- A 40-bit frame FRAME40 read as one number, `RAW[0]` its most significant bit (R50, R74). -/
abbrev Frame := BitVec 40

/-- The RawBitStream `RAW[0..39]`, oldest first (R24). -/
abbrev RawBits := Vector Level 40

/-- A counter of `CNT_W` = 9 bits: `POLLS` and `ACNT` (R7, R23). -/
abbrev Count := BitVec 9

/-- A 4-bit operation code OP4 (R78). -/
abbrev Op4 := BitVec 4

end Sys2Proof
end

