-- ==== Sys2Proof/Syntax.lean ====
section
/-! DEFINITION. The operations of the block, one constructor for each row of spec/opcode_table.json, and the seven
phases the sequencer register takes. -/

namespace Sys2Proof

/-- The nine operations (R78). The sequencer's operations and CYCLE work on the channel `CH`, so their syntax carries no
operand (R78, log 12); TRY_READ carries the channel the consumer chose, the value of port `rd_ch` (R133, R201). -/
inductive Instr where
  | idle
  | wake
  | ack
  | capture
  | decode
  | publish
  | sleep
  | tryRead (c : Nat)
  | cycle
deriving DecidableEq, Repr

/-- The values of `SEQ` (R21): the phase being executed. The codes 7 to 15 are no values of it (R80, U11). -/
inductive Phase where
  | idle
  | wake
  | ack
  | capture
  | decode
  | publish
  | sleep
deriving DecidableEq, Repr

end Sys2Proof
end

