-- ==== Sys2Proof/Decode.lean ====
section
/-! DEFINITION. Operation codes (R78 of spec/30_encoding.md), the decoder and the encoder.
An operation word is a number: OP4 in bits 3..0, and above it the channel operand of TRY_READ, the value that stands on port
`rd_ch` (log 11). -/

namespace Sys2Proof

/-- Why a word is refused. -/
inductive DecodeError where
  /-- OP4 codes 9 to 15 (R80). -/
  | reserved (code : Op4)
  /-- An operand stands on a word whose operation takes none (log 11). -/
  | strayOperand (code : Op4)
deriving DecidableEq, Repr

/-- The OP4 field of a word. -/
def opField (w : Nat) : Op4 := BitVec.ofNat 4 w

/-- The operand of a word, everything above the OP4 field. -/
def operandField (w : Nat) : Nat := w / 16

/-- An operation that takes no operand: any operand beside it is refused. -/
def noOperand (w : Nat) (i : Instr) : Except DecodeError Instr :=
  if operandField w = 0 then .ok i else .error (.strayOperand (opField w))

/-- The decoder, total on every word (R78, R80 (a)). -/
def decodeWord (w : Nat) : Except DecodeError Instr :=
  match (opField w).toNat with
  | 0 => noOperand w .idle
  | 1 => noOperand w .wake
  | 2 => noOperand w .ack
  | 3 => noOperand w .capture
  | 4 => noOperand w .decode
  | 5 => noOperand w .publish
  | 6 => noOperand w .sleep
  | 7 => .ok (.tryRead (operandField w))
  | 8 => noOperand w .cycle
  | _ => .error (.reserved (opField w))

/-- The number a list of bytes stands for, the first byte the lowest: the spec gives an operation no byte form (DESIGN CHOICE,
log 11). -/
def bytesToWord : List Byte → Nat
  | [] => 0
  | x :: xs => x.toNat + 256 * bytesToWord xs

/-- The decoder on any list of bytes. -/
def decodeBytes (bs : List Byte) : Except DecodeError Instr := decodeWord (bytesToWord bs)

/-- The operation an opcode-table row's bits decode to; the bits above `nbits` are 0. -/
def decodeTableWord (nbits w : Nat) : Option Instr :=
  match decodeWord (w % 2 ^ nbits) with
  | .ok i => some i
  | .error _ => none

/-- The OP4 code of an operation (R78). -/
def Instr.code : Instr → Op4
  | .idle => 0
  | .wake => 1
  | .ack => 2
  | .capture => 3
  | .decode => 4
  | .publish => 5
  | .sleep => 6
  | .tryRead _ => 7
  | .cycle => 8

/-- The operand an operation carries in its word. -/
def Instr.operand : Instr → Nat
  | .tryRead c => c
  | .idle => 0
  | .wake => 0
  | .ack => 0
  | .capture => 0
  | .decode => 0
  | .publish => 0
  | .sleep => 0
  | .cycle => 0

/-- The encoder: the word of an operation. -/
def encode (i : Instr) : Nat := i.code.toNat + 16 * i.operand

/-- The code a value of `SEQ` holds, OP4 codes 0 to 6 (R21, R78). -/
def Phase.code : Phase → Op4
  | .idle => 0
  | .wake => 1
  | .ack => 2
  | .capture => 3
  | .decode => 4
  | .publish => 5
  | .sleep => 6

/-- The operation a phase executes (R21: during an operation `SEQ` holds its code). -/
def Phase.instr : Phase → Instr
  | .idle => .idle
  | .wake => .wake
  | .ack => .ack
  | .capture => .capture
  | .decode => .decode
  | .publish => .publish
  | .sleep => .sleep

end Sys2Proof
end

