-- ==== Sys2Proof/Config.lean ====
section
/-! DEFINITION. The constants the spec fixes (R6, R7), the parameters it leaves open (R7, R212), and the free values:
opaque constants without a body, so that no proof sees their values. -/

namespace Sys2Proof

namespace Config

/-- `QCAP`, the capacity of each queue (R6). -/
abbrev qcap : Nat := 2
/-- `WAKE_LOW_TICKS`, the wake low hold: 20 ms at 1 µs a tick (R7). -/
abbrev wakeLowTicks : Nat := 20000
/-- `ACK_BUDGET`, the polls of each acknowledge half (R6). -/
abbrev ackBudget : Nat := 255
/-- `ACK_LOW_THR`: the first half succeeds when the low count exceeds it (R6). -/
abbrev ackLowThr : Nat := 65
/-- `ACK_HIGH_THR`: the second half succeeds when the high count exceeds it (R6). -/
abbrev ackHighThr : Nat := 60
/-- `PRE_TICKS`, the ticks before the first bit (R7). -/
abbrev preTicks : Nat := 4
/-- `LOW_CEIL`, the ceiling of each bit's low-wait (R6). -/
abbrev lowCeil : Nat := 256
/-- `BIT_THR`: a bit is 1 when its high count exceeds it (R6). -/
abbrev bitThr : Nat := 30
/-- `CNT_W`, the width of `POLLS`, `ACNT` and, under the default ceiling, `CNT` (R7, D6). -/
abbrev cntW : Nat := 9
/-- `SLEEP_TICKS_MIN`, 2 s at 1 µs a tick (R170). -/
abbrev sleepTicksMin : Nat := 2000000
/-- `SIGN_WEIGHT`, subtracted from temperature-high when the sign bit is set (R6). -/
abbrev signWeight : Nat := 128

/-- The level a line shows at a tick: `freeLevel c t` is `line(c, t)` where no scripted sample stands (R8, R11, U7). -/
opaque freeLevel : Nat → Nat → Level
/-- Which agent takes a step where no scripted turn stands: `0` the sequencer, `1` the consumer, `2` both in one tick,
`3` the reset input (R58, U14, U15, U18). -/
opaque freeAgent : Nat → Fin 4
/-- The channel the consumer names in such a step; taken modulo `NCH` (U15, log 24). -/
opaque freeReadChannel : Nat → Nat
/-- How far a SLEEP exceeds its minimum, where the duration is drawn: one draw for each number of a SLEEP (R170, U8, log 7). -/
opaque freeSleepExtra : Nat → Nat
/-- `RAW` after a reset in the n-th step (R33, U2). -/
opaque freeRaw : Nat → Frame
/-- `B[k]` after a reset in the n-th step (R33, U2). -/
opaque freeByte : Nat → Nat → Byte
/-- The low seven bits of `THC` after a reset in the n-th step (R33, U2); its bit 7 is always 0 (R25). -/
opaque freeThc : Nat → BitVec 7
/-- `H10` after a reset in the n-th step (R33, U2). -/
opaque freeH10 : Nat → BitVec 16
/-- `TMAG` after a reset in the n-th step (R33, U2). -/
opaque freeTmag : Nat → BitVec 15
/-- `SIGN` after a reset in the n-th step (R33, U2). -/
opaque freeSign : Nat → Bool
/-- `MEM[c][j]` after a reset in the n-th step (R33, U2). -/
opaque freeMem : Nat → Nat → Nat → Entry
/-- `rd_data` in the n-th step, where `rd_some` is 0 (R201, U5). -/
opaque freeRdData : Nat → Entry
/-- `diag_ch`, `diag_kind` and `diag_aux` in the n-th step, where `diag_valid` is 0 (R186). -/
opaque freeDiagHead : Nat → Nat × BitVec 2 × BitVec 6
/-- `diag_raw` and `diag_bytes` in the n-th step, where no event of kind 3 stands (R186, U4). -/
opaque freeDiagFrame : Nat → Frame × Frame
/-- `diag_thc` and `diag_sign` in the n-th step, where no event of kind 3 stands (R186, U4). -/
opaque freeDiagTemp : Nat → Byte × Bool

end Config

/-- The parameters fixed before reset is released (R7, R212 (b)). `highCeil` is `HIGH_CEIL` (D3). `SLEEP_TICKS` is
`SLEEP_TICKS_MIN` plus `e` where `sleepExtra` is `some e`, and drawn afresh at each SLEEP where it is `none` (R170). -/
structure Params where
  nch : Nat
  highCeil : Option Nat
  sleepExtra : Option Nat
  interSensor : Nat
deriving DecidableEq, Repr

/-- The parameters `State.reset` takes (log 6): one channel, and the spec's defaults `HIGH_CEIL = some 256`,
`INTER_SENSOR_TICKS = 0`, a fresh draw for each SLEEP. -/
def Config.default : Params := { nch := 1, highCeil := some 256, sleepExtra := none, interSensor := 0 }

/-- The width of `CH`, `max(1, ceil(log2(NCH)))` bits (R21). -/
def Params.chWidth (p : Params) : Nat := max 1 (Nat.clog 2 p.nch)

/-- What the spec asks of the parameters: at least one channel (R7) and a ceiling that a count can reach (R94, log 16). A ceiling above
512, past what `CNT_W` bits count to, is legal too: D3 allows any, and the spec does not say which of the two gives way (DESIGN
CHOICE, log 26). -/
def Params.legal (p : Params) : Bool := decide (1 ≤ p.nch) && decide (p.highCeil ≠ some 0)

end Sys2Proof
end

