-- ==== Sys2Proof/Machine/State.lean ====
section
/-! DEFINITION. The state of the block as plain data (R20 to R29 of spec/10_state.md), the reasons a step can stop, and the
state after reset (R33). -/

namespace Sys2Proof.Machine

/-- The values of `CPH`, the capture phase (R24, R79). Codes 6 and 7 never occur (R80). -/
inductive CapturePhase where
  | idle
  | pre
  | low
  | high
  | done
  | fail
deriving DecidableEq, Repr

/-- The values of `ERR` (R27, R180): `none` = 0, then the three failure kinds 1, 2, 3. -/
inductive ErrCode where
  | none
  | acknowledgeTimeout
  | incompleteCapture
  | checksumMismatch
deriving DecidableEq, Repr

/-- The diagnostic record of one failure (R186, with the information of R181, R182, R183). Each kind carries the fields that
the table of R186 marks as present for it; the port view of the others is a free value (`State.ports`). -/
inductive DiagEvent where
  /-- Kind 1: the channel and the failing half, `AH`. -/
  | acknowledgeTimeout (ch : Nat) (half : Bool)
  /-- Kind 2: the channel and the bit index, `IDX`. -/
  | incompleteCapture (ch : Nat) (idx : Fin 40)
  /-- Kind 3: the channel, `F`, the transmitted bytes, the corrected temperature-high and the sign. -/
  | checksumMismatch (ch : Nat) (raw : Frame) (bytes : Frame) (thc : Byte) (sign : Bool)
deriving DecidableEq, Repr

/-- One channel's registers: the line driver (R22) and the queue as R29 realises it. -/
structure Channel where
  /-- `OE[c]`: true = output, false = input. -/
  oe : Bool
  /-- `OUT[c]`: the level driven while `OE[c]` is 1. -/
  out : Level
  /-- `MEM[c][0..1]`. -/
  mem : Vector Entry 2
  /-- `WR[c]`: the slot the next accepted PUBLISH writes. -/
  wr : Fin 2
  /-- `RD[c]`: the slot the next successful TRY_READ reads. -/
  rd : Fin 2
  /-- `COUNT[c]`: the number of valid entries, 0..2. -/
  count : Fin 3
deriving DecidableEq, Repr

/-- Who takes a step. The first four are the hardware's (R8, R13, R59, R210); the last is how a trace or a test program
names one operation by its word (R82, R172). -/
inductive Turn where
  /-- The sequencer runs the operation `SEQ` names. -/
  | sequencer
  /-- The consumer issues TRY_READ on channel `c`. -/
  | consumer (c : Nat)
  /-- Both in one tick; both look at the state before it (R59). -/
  | together (c : Nat)
  /-- The operation word `w` is issued by a trace (R82). -/
  | issue (w : Nat)
  /-- The input `rst` is asserted (R210). -/
  | reset
deriving DecidableEq, Repr

/-- The state. The fields down to `err` are the registers of R21 to R29; `diag` and `rdPort` are the output ports of the step
just taken (R186, R201); the fields from `cfg` on are the model's own: the parameters (R7) and the inputs (R8, R20). -/
structure State where
  /-- `SEQ`, the phase being executed. -/
  seq : Phase
  /-- `CH`, the channel whose cycle is running; its width depends on `NCH` (log 1). -/
  ch : Nat
  /-- `TMR`, ticks elapsed in the current WAKE or SLEEP. -/
  tmr : Nat
  /-- `OE[c]`, `OUT[c]`, `MEM[c]`, `WR[c]`, `RD[c]`, `COUNT[c]`, channel 0 first. -/
  chans : List Channel
  /-- `AH`: false = first half, true = second half. -/
  ah : Bool
  /-- `POLLS`, polls made in the current half. -/
  polls : Count
  /-- `ACNT`, samples of the wanted level counted in the current half. -/
  acnt : Count
  /-- `CPH`, the capture phase. -/
  cph : CapturePhase
  /-- `CNT`, the capture counter, an unbounded natural because `HIGH_CEIL` can be `none` (R99, log 1), and above 512 (log 26). -/
  cnt : Nat
  /-- `IDX`, the index of the bit being captured. -/
  idx : Fin 40
  /-- `RAW[0..39]`. -/
  raw : RawBits
  /-- `B[0..4]`, the transmitted bytes. -/
  b : Vector Byte 5
  /-- `THC`, temperature-high after sign correction. -/
  thc : Byte
  /-- `H10`, humidity in tenths of a percent. -/
  h10 : BitVec 16
  /-- `TMAG`, magnitude of temperature in tenths of a degree Celsius. -/
  tmag : BitVec 15
  /-- `ACK_OK`. -/
  ackOk : Bool
  /-- `CAP_OK`. -/
  capOk : Bool
  /-- `CSUM_OK`. -/
  csumOk : Bool
  /-- `SIGN`: true = negative. -/
  sign : Bool
  /-- `ACC`: true = the last PUBLISH stored its entry. -/
  acc : Bool
  /-- `ERR`. -/
  err : ErrCode
  /-- Port `diag_*`: the event of the step just taken, if there was one (R186). -/
  diag : Option DiagEvent
  /-- Ports `rd_some`, `rd_data`: the result of the TRY_READ of the step just taken, if there was one (R201). -/
  rdPort : Option (Option Entry)
  /-- The parameters (R7), fixed before reset is released (R212). -/
  cfg : Params
  /-- The levels of the sampled line at the next sampling ticks (log 8). -/
  samples : List Level
  /-- Who takes the next steps (log 9). -/
  turns : List Turn
  /-- Ticks taken so far, the `t` of `line(c, t)` (log 8). -/
  now : Nat
  /-- Steps taken so far (log 9). -/
  turnNo : Nat
  /-- The number of the current or next SLEEP: SLEEPs completed and resets taken so far (log 7). -/
  sleeps : Nat
  /-- A CYCLE has begun its pass and the pass is not over (log 14). -/
  cycling : Bool
deriving DecidableEq, Repr

/-- Why the machine stops with a fault. -/
inductive Fault where
  /-- `CH` names no channel of the block. Raised by IDLE, WAKE, ACK, CAPTURE, PUBLISH and CYCLE in a state that no run
  reaches (R21: `0 ≤ CH < NCH`). Safe: the hardware has no such state (log 18). -/
  | absentChannel
deriving DecidableEq, Repr

/-- Why an operation is refused. -/
inductive Refusal where
  /-- An operation without a meaning in this model. Raised by no arm of `exec`. Safe. -/
  | notModelled (mnemonic : String)
  /-- OP4 codes 9 to 15. Raised by a trace that names one; R80 (a) says a model refuses it. Safe. -/
  | reservedCode (code : Op4)
  /-- A word that carries an operand its operation does not take. Raised by a trace that holds one (log 11). Safe. -/
  | strayOperand (code : Op4)
  /-- A sequencer operation named while `SEQ` does not hold its code. Raised by every operation but TRY_READ; U13 says
  refuse (log 13). Safe. -/
  | outOfSequence
  /-- ACK or CAPTURE with `OE[CH]` = 1. Raised by ACK and CAPTURE; R90, R160 and U13 say refuse. Safe. -/
  | lineIsOutput
  /-- DECODE without a successful CAPTURE in the same cycle. Raised by DECODE; R110 and U13 say refuse. Safe. -/
  | noCapturedFrame
  /-- PUBLISH without a DECODE with `CSUM_OK` = 1 in the same cycle. Raised by PUBLISH; R131 and U13 say refuse. Safe. -/
  | frameNotValid
  /-- TRY_READ on a channel that does not exist. Raised by TRY_READ; R133 and U12 say refuse. Safe. -/
  | noSuchChannel (c : Nat)
deriving DecidableEq, Repr

/-- The outcome of one operation or step. -/
abbrev Outcome := Host.Outcome State Fault Refusal

/-- The registers that are unspecified after reset (R33, U2), but for `MEM`. -/
structure Unspecified where
  raw : RawBits
  b : Vector Byte 5
  thc : BitVec 7
  h10 : BitVec 16
  tmag : BitVec 15
  sign : Bool
deriving DecidableEq, Repr

/-- A channel after reset (R33): released, its driver level 1, its queue empty, its slots `m`. -/
def Channel.afterReset (m : Vector Entry 2) : Channel :=
  { oe := false, out := Level.high, mem := m, wr := 0, rd := 0, count := 0 }

/-- The block after reset, with parameters `p` (R33). `u` and `mem` are what the unspecified registers hold. -/
def State.afterReset (p : Params) (u : Unspecified) (mem : Nat → Vector Entry 2) : State where
  seq := .idle
  ch := 0
  tmr := 0
  chans := (List.range p.nch).map fun c => Channel.afterReset (mem c)
  ah := false
  polls := 0
  acnt := 0
  cph := .idle
  cnt := 0
  idx := 0
  raw := u.raw
  b := u.b
  thc := u.thc.setWidth 8
  h10 := u.h10
  tmag := u.tmag
  ackOk := false
  capOk := false
  csumOk := false
  sign := u.sign
  acc := false
  err := .none
  diag := none
  rdPort := none
  cfg := p
  samples := []
  turns := []
  now := 0
  turnNo := 0
  sleeps := 0
  cycling := false

/-- Zero in every unspecified register: the DESIGN CHOICE of log 4. -/
def Unspecified.zero : Unspecified :=
  { raw := Vector.replicate 40 false, b := Vector.replicate 5 0, thc := 0, h10 := 0, tmag := 0, sign := false }

/-- The machine right after reset (R33, R210), with the parameters of log 6 and the unspecified registers of log 4. -/
def State.reset : State := State.afterReset Config.default Unspecified.zero fun _ => Vector.replicate 2 0

end Sys2Proof.Machine
end

