-- ==== Sys2Proof/Machine/Operands.lean ====
section
/-! DEFINITION. Operand assembly: every value that is put together from bits or bytes (R50 to R53 of spec/20_memory.md,
R75 to R77 of spec/30_encoding.md, R111, R113, R116 of spec/41_decode.md). -/

namespace Sys2Proof.Machine

/-- `F`, the stream read as one number, `RAW[0]` its most significant bit (R50). -/
def frameOf (raw : RawBits) : Frame :=
  BitVec.ofNat 40 (raw.toList.foldl (fun acc v => 2 * acc + v.toNat) 0)

/-- The stream of a frame: `RAW[i] = F[39 - i]` (R50). -/
def bitsOf (f : Frame) : RawBits := Vector.ofFn fun i => f.getLsbD (39 - i)

/-- `RAW[i]` for a stream index given as a number. -/
def rawAt (raw : RawBits) (i : Nat) : Level := raw.toList.getD i false

/-- The packer: `B[k]` is the sum over `j` of `RAW[8k+j] * 2^(7-j)` (R51, R111). -/
def byteAt (raw : RawBits) (k : Nat) : Byte :=
  BitVec.ofNat 8 (((List.range 8).map fun j => (rawAt raw (8 * k + j)).toNat * 2 ^ (7 - j)).sum)

/-- `B[0..4]`, the five transmitted bytes (R111). -/
def bytesOf (raw : RawBits) : Vector Byte 5 :=
  #v[byteAt raw 0, byteAt raw 1, byteAt raw 2, byteAt raw 3, byteAt raw 4]

/-- `B[0] ++ B[1] ++ B[2] ++ B[3] ++ B[4]`, the content of `diag_bytes` (R186). -/
def joinBytes (b : Vector Byte 5) : Frame := b[0] ++ b[1] ++ b[2] ++ b[3] ++ b[4]

/-- `SUM`, the exact sum of the first four transmitted bytes, 0..1020 (R75, R112). -/
def checkSum (b : Vector Byte 5) : Nat := b[0].toNat + b[1].toNat + b[2].toNat + b[3].toNat

/-- `SIGN`, the sign bit `RAW[16]` (R75, R113). -/
def signOf (raw : RawBits) : Bool := raw[16]

/-- `THC`: 128 is subtracted from temperature-high when the sign bit is set (R113). -/
def correctedHigh (sign : Bool) (b2 : Byte) : Byte :=
  if sign then b2 - BitVec.ofNat 8 Config.signWeight else b2

/-- `H10 = 256 * B[0] + B[1]` (R116). -/
def humidityTenths (b : Vector Byte 5) : BitVec 16 := BitVec.ofNat 16 (256 * b[0].toNat + b[1].toNat)

/-- `TMAG = 256 * THC + B[3]` (R116). -/
def temperatureTenths (thc : Byte) (b : Vector Byte 5) : BitVec 15 :=
  BitVec.ofNat 15 (256 * thc.toNat + b[3].toNat)

/-- The queue entry `H10 ++ SIGN ++ TMAG` (R76, R131). -/
def entryOf (h10 : BitVec 16) (sign : Bool) (tmag : BitVec 15) : Entry := h10 ++ BitVec.ofBool sign ++ tmag

/-- The fields of an entry (R76). -/
def entryH10 (e : Entry) : BitVec 16 := e.extractLsb' 16 16
def entrySign (e : Entry) : Bool := e.getLsbD 15
def entryTmag (e : Entry) : BitVec 15 := e.extractLsb' 0 15

/-- The Reading an entry denotes, as exact rationals (R77, R117). -/
def readingHumidity (e : Entry) : Rat := (entryH10 e).toNat / 10
def readingTemperature (e : Entry) : Rat :=
  (if entrySign e then -1 else 1) * ((entryTmag e).toNat / 10)

end Sys2Proof.Machine
end

