-- ==== Sys2Proof/Machine/Ops.lean ====
section
/-! DEFINITION. The named operations every meaning uses: channel access, sampling the line, the queue of a channel, the
preconditions of an operation, taking a failure (R184) and the return from one (R185, R154), and the entry actions of the
phases (R152). -/

namespace Sys2Proof.Machine

/-! ## Channels -/

/-- Channel `c` rewritten by `f`; every other channel is left alone. -/
def State.onChan (s : State) (c : Nat) (f : Channel → Channel) : State :=
  { s with chans := s.chans.modify c f }

/-- Line Driver `set_direction` (R200): true = output. -/
def Channel.setDirection (k : Channel) (output : Bool) : Channel := { k with oe := output }

/-- Line Driver `write` (R200). -/
def Channel.write (k : Channel) (v : Level) : Channel := { k with out := v }

/-- The level the block drives on a line, nothing while the line is an input (R22). -/
def Channel.driven (k : Channel) : Option Level := if k.oe then some k.out else none

/-! ## The line -/

/-- `line(CH, t)` at this tick (R8, R11): the next scripted sample, or a free level where the script has ended. -/
def State.level (s : State) : Level :=
  match s.samples with
  | v :: _ => v
  | [] => Config.freeLevel s.ch s.now

/-- One tick passes (R12). -/
def State.tick (s : State) : State := { s with now := s.now + 1 }

/-- One tick passes at which the line shows a level: the level is used up (R91). -/
def State.sampled (s : State) : State := { s with samples := s.samples.tail, now := s.now + 1 }

/-! ## The queue of a channel (R29, R135) -/

/-- The abstract queue `Q[c]`, oldest first (R29). -/
def Channel.queue (k : Channel) : List Entry :=
  match k.count with
  | 0 => []
  | 1 => [k.mem[k.rd]]
  | 2 => [k.mem[k.rd], k.mem[1 - k.rd]]

/-- `MEM[c][WR[c]] <- e`, `WR[c] <- 1 - WR[c]`, `COUNT[c] <- COUNT[c] + 1` (R135). -/
def Channel.push (k : Channel) (e : Entry) : Channel :=
  { k with mem := k.mem.set k.wr e, wr := 1 - k.wr, count := k.count + 1 }

/-- `RD[c] <- 1 - RD[c]`, `COUNT[c] <- COUNT[c] - 1` (R135). -/
def Channel.pop (k : Channel) : Channel := { k with rd := 1 - k.rd, count := k.count - 1 }

/-! ## Preconditions (U13) -/

/-- The outcome `r` where `SEQ` holds the phase of the operation, a refusal elsewhere (R152, U13). -/
def onPhase (p : Phase) (s : State) (r : Outcome) : Outcome :=
  if s.seq = p then r else .refused .outOfSequence

/-- The outcome `f k` on the registers `k` of channel `CH`; a fault where `CH` names no channel (log 18). -/
def onCurrent (s : State) (f : Channel → Outcome) : Outcome :=
  match s.chans[s.ch]? with
  | some k => f k
  | none => .fault .absentChannel

/-- The outcome `r` where the line of channel `CH` is an input, `OE[CH]` = 0 (preconditions of R90 and R160). -/
def onInputLine (s : State) (r : Outcome) : Outcome :=
  onCurrent s fun k => if k.oe then .refused .lineIsOutput else r

/-! ## Entry actions (R152, R154) -/

/-- Entry into WAKE, the start of a cycle (R154): the flags and `ERR` are cleared, which is also the only return from a
failure (R185); the line of `CH` becomes an output and is driven low. -/
def enterWake (s : State) : State :=
  { s.onChan s.ch fun k => (k.setDirection true).write Level.low with
    seq := .wake, tmr := 0, ackOk := false, capOk := false, csumOk := false, acc := false, err := .none }

/-- Entry into ACK (R152): input mode, a fresh first half. -/
def enterAck (s : State) : State :=
  { s.onChan s.ch fun k => k.setDirection false with seq := .ack, ah := false, polls := 0, acnt := 0 }

/-- Entry into CAPTURE (R152, R99). -/
def enterCapture (s : State) : State :=
  { s with seq := .capture, ackOk := true, cph := .pre, cnt := 0, idx := 0 }

/-- Entry into SLEEP (R152, R184). -/
def enterSleep (s : State) : State := { s with seq := .sleep, tmr := 0 }

/-! ## Taking a failure -/

/-- The code a failure puts into `ERR` (R180). -/
def DiagEvent.err : DiagEvent → ErrCode
  | .acknowledgeTimeout _ _ => .acknowledgeTimeout
  | .incompleteCapture _ _ => .incompleteCapture
  | .checksumMismatch _ _ _ _ _ => .checksumMismatch

/-- `raise K(info)` (R184): `ERR <- code(K)`, one diagnostic event, `SEQ <- SLEEP`, `TMR <- 0`; nothing else. -/
def raise (ev : DiagEvent) (s : State) : State := { enterSleep s with err := ev.err, diag := some ev }

end Sys2Proof.Machine
end

