-- ==== Sys2Proof/Machine/Flags.lean ====
section
/-! DEFINITION. Every flag computation (R27 of spec/10_state.md), every threshold comparison (R118), and the codes of the
capture phases and failure kinds (R79, R180). -/

namespace Sys2Proof.Machine

/-- `EMPTY[c]`: `len(Q[c]) = 0`, derived from the queue (R27). -/
def Channel.empty (k : Channel) : Bool := k.count == 0

/-- `FULL[c]`: `len(Q[c]) = QCAP`, derived from the queue (R27). -/
def Channel.full (k : Channel) : Bool := k.count.val == Config.qcap

/-- `CSUM_OK`: `SUM mod 256 = B[4]` (R112, D7). -/
def checkSumHolds (b : Vector Byte 5) : Bool := checkSum b % 256 == b[4].toNat

/-- The classification of a bit: 1 when the high count exceeds `BIT_THR`, strictly (R95, R118). -/
def classify (h : Nat) : Level := decide (Config.bitThr < h)

/-- The level an acknowledge half counts: low in the first, high in the second (R164). -/
def wanted (half : Bool) : Level := half

/-- The threshold an acknowledge half must exceed (R164). -/
def threshold (half : Bool) : Nat := if half then Config.ackHighThr else Config.ackLowThr

/-- The count of a half after the sample `v`: an unwanted level leaves it as it is, total counting (R165 (a), D12). -/
def countAfter (half : Bool) (v : Level) (acnt : Count) : Count := if v = wanted half then acnt + 1 else acnt

/-- The code of a capture phase (R79). -/
def CapturePhase.code : CapturePhase → BitVec 3
  | .idle => 0
  | .pre => 1
  | .low => 2
  | .high => 3
  | .done => 4
  | .fail => 5

/-- The code of a failure kind (R180). -/
def ErrCode.code : ErrCode → BitVec 2
  | .none => 0
  | .acknowledgeTimeout => 1
  | .incompleteCapture => 2
  | .checksumMismatch => 3

end Sys2Proof.Machine
end

