-- ==== Sys2Proof/Machine/Acknowledge.lean ====
section
/-! DEFINITION. The meaning of ACK, the Acknowledge Detector (R160 to R166 of spec/43_sequencer.md). -/

namespace Sys2Proof.Machine

/-- One tick of ACK, the table of R164 with the counting of R161 and R162 (log 2): the sample is counted and the poll used up
on every tick; the first row that matches applies, the success test before the budget test (R187). -/
def ackTick (s : State) : State :=
  let a := countAfter s.ah s.level s.acnt
  let p := s.polls + 1
  let s' := { s.sampled with acnt := a, polls := p }
  if threshold s.ah < a.toNat then
    if s.ah then enterCapture s' else { s' with ah := true, polls := 0, acnt := 0 }
  else if p.toNat = Config.ackBudget then
    raise (.acknowledgeTimeout s.ch s.ah) { s' with ackOk := false }
  else s'

/-- `ACK c` with `c = CH` (OP4 code 2, R160). -/
def execAck (s : State) : Outcome := onPhase .ack s (onInputLine s (.next (ackTick s)))

end Sys2Proof.Machine
end

