-- ==== Sys2Proof/Machine/Capture.lean ====
section
/-! DEFINITION. The meaning of CAPTURE, the Bit Capture Engine (R90 to R104 of spec/40_capture.md), tick by tick (R99). -/

namespace Sys2Proof.Machine

/-- The high count of the current bit becomes `h` (R94); a count that reaches `HIGH_CEIL` fails the capture (R97). With a ceiling above
512 the count goes past 511 as a natural number (DESIGN CHOICE, log 26). -/
def countHigh (h : Nat) (s : State) : State :=
  if s.cfg.highCeil = some h then
    raise (.incompleteCapture s.ch s.idx) { s with cph := .fail, capOk := false }
  else { s with cph := .high, cnt := h }

/-- The current bit ends on a low sample (R95): it is classified and stored; the sample is the first low sample of the next
bit, or the capture has succeeded (R96). -/
def storeBit (s : State) : State :=
  if s.idx.val < 39 then
    { s with raw := s.raw.set s.idx (classify s.cnt), idx := s.idx + 1, cph := .low, cnt := 1 }
  else { s with raw := s.raw.set s.idx (classify s.cnt), cph := .done, capOk := true, seq := .decode }

/-- The transition of one tick on the sample `v`, row by row the table of R99 (log 17). The table has no row for a `CNT` past its
limit: past 4 and past 256 it is taken like the limit, and past `HIGH_CEIL` the count goes on (DESIGN CHOICE, log 25). -/
def captureRow (v : Level) (s : State) : State :=
  match s.cph with
  | .pre => if s.cnt + 1 < Config.preTicks then { s with cnt := s.cnt + 1 } else { s with cph := .low, cnt := 0 }
  | .low =>
    if v then countHigh 1 s
    else if s.cnt + 1 < Config.lowCeil then { s with cnt := s.cnt + 1 }
    else { s with cph := .high, cnt := 0 }
  | .high => if v then countHigh (s.cnt + 1) s else storeBit s
  | .idle => s
  | .done => s
  | .fail => s

/-- One tick of CAPTURE. -/
def captureTick (s : State) : State := captureRow s.level s.sampled

/-- `CAPTURE c` with `c = CH` (OP4 code 3, R90). -/
def execCapture (s : State) : Outcome := onPhase .capture s (onInputLine s (.next (captureTick s)))

end Sys2Proof.Machine
end

