-- ==== Sys2Proof/Machine/FrameDecoder.lean ====
section
/-! DEFINITION. The meaning of DECODE, the Frame Decoder (R110 to R122 of spec/41_decode.md). -/

namespace Sys2Proof.Machine

/-- Everything DECODE writes but for the control transfer (R111, R112, R113, R116), whatever the checksum says (R114). -/
def decodeFrame (s : State) : State :=
  let b := bytesOf s.raw
  let sign := signOf s.raw
  let thc := correctedHigh sign b[2]
  { s with b := b, csumOk := checkSumHolds b, sign := sign, thc := thc,
           h10 := humidityTenths b, tmag := temperatureTenths thc b }

/-- The event of a checksum failure (R183, R186). -/
def mismatchEvent (s : State) : DiagEvent :=
  .checksumMismatch s.ch (frameOf s.raw) (joinBytes s.b) s.thc s.sign

/-- The one step of DECODE (R119): the control transfer of R115 on what was decoded. -/
def decodeStep (s : State) : State :=
  let s' := decodeFrame s
  if s'.csumOk then { s' with seq := .publish } else raise (mismatchEvent s') s'

/-- `DECODE` (OP4 code 4, R110). -/
def execDecode (s : State) : Outcome :=
  onPhase .decode s (if s.capOk then .next (decodeStep s) else .refused .noCapturedFrame)

end Sys2Proof.Machine
end

