-- ==== Sys2Proof/Machine/Queue.lean ====
section
/-! DEFINITION. The meanings of PUBLISH and TRY_READ, the Reading Pipeline (R130 to R138 of spec/42_queue.md). -/

namespace Sys2Proof.Machine

/-- The entry PUBLISH builds from the registers DECODE wrote (R131). -/
def State.entry (s : State) : Entry := entryOf s.h10 s.sign s.tmag

/-- The one step of PUBLISH (R131, R135) on the queue of channel `CH`, whose registers are `k`: the entry is appended, or
dropped where the queue is full (`drop_newest`, R132); then SLEEP. -/
def publishStep (k : Channel) (s : State) : State :=
  if k.full then enterSleep { s with acc := false }
  else enterSleep { s.onChan s.ch fun k => k.push s.entry with acc := true }

/-- `PUBLISH c` with `c = CH` (OP4 code 5, R131). -/
def execPublish (s : State) : Outcome :=
  onPhase .publish s (onCurrent s fun k =>
    if s.csumOk then .next (publishStep k s) else .refused .frameNotValid)

/-- What TRY_READ returns on the registers `k` of a channel (R133, R135). -/
def Channel.head (k : Channel) : Option Entry := if k.empty then none else some k.mem[k.rd]

/-- TRY_READ on channel `c`, evaluated against the state `pre` and applied to `post` (R59, R133, R135): the head of the queue
as it was in `pre` is returned and removed. A channel that does not exist is refused (R133, U12). -/
def tryReadFrom (pre post : State) (c : Nat) : Outcome :=
  match pre.chans[c]? with
  | none => .refused (.noSuchChannel c)
  | some k =>
    if k.empty then .next { post with rdPort := some k.head }
    else .next { post.onChan c fun k => k.pop with rdPort := some k.head }

/-- `TRY_READ c` (OP4 code 7, R133). -/
def execTryRead (c : Nat) (s : State) : Outcome := tryReadFrom s s c

end Sys2Proof.Machine
end

