-- ==== Sys2Proof/Machine/Sequencer.lean ====
section
/-! DEFINITION. The meanings of IDLE, WAKE and SLEEP (R153, R154, R156, R157, R170 of spec/43_sequencer.md). -/

namespace Sys2Proof.Machine

/-- The one tick of IDLE (R153): to WAKE with its entry actions (R154). -/
def idleTick (s : State) : State := (enterWake s).tick

/-- `IDLE` (OP4 code 0, R153). -/
def execIdle (s : State) : Outcome :=
  onPhase .idle s (onCurrent s fun _ => .next (idleTick s))

/-- One tick of WAKE, the table of R157; `TMR` above 20000 occurs in no run and is taken like 20000 (log 23). -/
def wakeTick (s : State) : State :=
  if s.tmr + 1 < Config.wakeLowTicks then { s.tick with tmr := s.tmr + 1 }
  else if s.tmr + 1 = Config.wakeLowTicks then
    { (s.onChan s.ch fun k => k.write Level.high).tick with tmr := Config.wakeLowTicks }
  else (enterAck s).tick

/-- `WAKE c` with `c = CH` (OP4 code 1, R156). -/
def execWake (s : State) : Outcome :=
  onPhase .wake s (onCurrent s fun _ => .next (wakeTick s))

/-- The duration `d` of the current SLEEP (R170): `SLEEP_TICKS_MIN`, and by how much this SLEEP exceeds it (a constant
parameter, or a free value drawn for each SLEEP), and `INTER_SENSOR_TICKS`. -/
def sleepDuration (s : State) : Nat :=
  Config.sleepTicksMin + s.cfg.sleepExtra.getD (Config.freeSleepExtra s.sleeps) + s.cfg.interSensor

/-- The channel after `CH` in the round (R170, R171). -/
def nextChannel (s : State) : Nat := (s.ch + 1) % s.cfg.nch

/-- One tick of SLEEP (R170): `TMR` counts; the tick that completes the duration goes on to the next channel's IDLE, where a CYCLE
that is under way ends. -/
def sleepTick (s : State) : State :=
  if sleepDuration s ≤ s.tmr + 1 then
    { s.tick with tmr := s.tmr + 1, seq := .idle, ch := nextChannel s, sleeps := s.sleeps + 1, cycling := false }
  else { s.tick with tmr := s.tmr + 1 }

/-- `SLEEP c` with `c = CH` (OP4 code 6, R170). -/
def execSleep (s : State) : Outcome := onPhase .sleep s (.next (sleepTick s))

end Sys2Proof.Machine
end

