-- ==== Sys2Proof/Machine/Cycle.lean ====
section
/-! DEFINITION. The meaning of the macro CYCLE (R172 of spec/43_sequencer.md): one whole pass of the transition table (R152)
from IDLE back to IDLE on channel `CH`, and its result. -/

namespace Sys2Proof.Machine

/-- `op`, tick by tick, while `SEQ` holds the phase `p`, for at most the given number of ticks. -/
def whilePhase (p : Phase) (op : State → State) : Nat → State → State
  | 0, s => s
  | n + 1, s => if s.seq = p then whilePhase p op n (op s) else s

/-- All that is left of WAKE at once: its ticks add up to 20001 from its entry (R157). -/
def wakeAll (s : State) : State :=
  { enterAck (s.onChan s.ch fun k => k.write Level.high) with
    tmr := Config.wakeLowTicks, now := s.now + (Config.wakeLowTicks + 1 - s.tmr) }

/-- All that is left of SLEEP at once: its ticks add up to its duration from its entry (R170). -/
def sleepAll (s : State) : State :=
  { s with tmr := sleepDuration s, now := s.now + (sleepDuration s - s.tmr), seq := .idle, ch := nextChannel s,
           sleeps := s.sleeps + 1, cycling := false }

/-- The ticks an ACK can take, 255 polls for each half (R164). -/
def ackTicksMax : Nat := 2 * Config.ackBudget

/-- Ticks that suffice for CAPTURE where `HIGH_CEIL = some n`: the pre-delay, 40 bits of at most `LOW_CEIL` low and `n` high
samples, and the last low sample (R173). Where it is `none` no number suffices (R97): one step of CYCLE then runs CAPTURE this long
at most, with the scripted samples counted in, and the next one goes on (log 14). -/
def captureTicksMax (s : State) : Nat :=
  Config.preTicks + 40 * (Config.lowCeil + s.cfg.highCeil.getD Config.lowCeil) + 1 +
    (if s.cfg.highCeil = none then s.samples.length else 0)

/-- DECODE and PUBLISH where the pass has come to them, and then SLEEP; a failed pass has gone to SLEEP already (R172). -/
def cycleTail (s : State) : State :=
  let s := if s.seq = .decode then decodeStep s else s
  let s := if s.seq = .publish then (match s.chans[s.ch]? with | some k => publishStep k s | none => s) else s
  if s.seq = .sleep then sleepAll s else s

/-- The pass from CAPTURE on. -/
def cycleRest (s : State) : State := cycleTail (whilePhase .capture captureTick (captureTicksMax s) s)

/-- One pass on channel `CH` from its IDLE (R172). -/
def cyclePass (s : State) : State := cycleRest (whilePhase .ack ackTick ackTicksMax (wakeAll (idleTick s)))

/-- A pass that has not come back to IDLE is under way: its CAPTURE goes on in the next CYCLE, or in the sequencer's own steps. -/
def markPass (s : State) : State := { s with cycling := decide (s.seq ≠ .idle) }

/-- `CYCLE c` with `c = CH` (OP4 code 8, R172): a pass from IDLE back to IDLE. Only where `HIGH_CEIL` is `none` can a CAPTURE outlast
the step; the pass then goes on with the next CYCLE, until it is over (log 14). -/
def execCycle (s : State) : Outcome :=
  if s.cycling ∧ s.seq ≠ .idle then onCurrent s fun _ => .next (markPass (cycleRest s))
  else onPhase .idle s (onCurrent s fun _ => .next (markPass (cyclePass s)))

/-- The results of a pass (R172). -/
inductive CycleResult where
  | published (acc : Bool)
  | acknowledgeTimeout
  | incompleteCapture
  | checksumMismatch
deriving DecidableEq, Repr

/-- The result of the pass that ended in `s`, read off the flags it left, which stay readable until the next WAKE (R170). -/
def State.cycleResult (s : State) : CycleResult :=
  match s.err with
  | .none => .published s.acc
  | .acknowledgeTimeout => .acknowledgeTimeout
  | .incompleteCapture => .incompleteCapture
  | .checksumMismatch => .checksumMismatch

end Sys2Proof.Machine
end

