-- ==== Sys2Proof/Machine/Dispatch.lean ====
section
/-! DEFINITION. One arm per operation. -/

namespace Sys2Proof.Machine

def exec (i : Instr) (s : State) : Host.Outcome State Fault Refusal :=
  match i with
  | .idle => Sys2Proof.Machine.execIdle s
  | .wake => Sys2Proof.Machine.execWake s
  | .ack => Sys2Proof.Machine.execAck s
  | .capture => Sys2Proof.Machine.execCapture s
  | .decode => Sys2Proof.Machine.execDecode s
  | .publish => Sys2Proof.Machine.execPublish s
  | .sleep => Sys2Proof.Machine.execSleep s
  | .tryRead c => Sys2Proof.Machine.execTryRead c s
  | .cycle => Sys2Proof.Machine.execCycle s

end Sys2Proof.Machine
end

