-- ==== Sys2Proof/Machine/Turns.lean ====
section
/-! DEFINITION. Whose turn a step is, the operation word it fetches, and what the step does (R8, R13, R58, R59, R210). -/

namespace Sys2Proof.Machine

/-- The turn of this step: the next scripted one, or a free choice where the script has ended (R58, U14, U15, log 9). -/
def State.turn (s : State) : Turn :=
  match s.turns with
  | t :: _ => t
  | [] =>
    match Config.freeAgent s.turnNo with
    | 0 => .sequencer
    | 1 => .consumer (Config.freeReadChannel s.turnNo % s.cfg.nch)
    | 2 => .together (Config.freeReadChannel s.turnNo % s.cfg.nch)
    | 3 => .reset

/-- A step begins: its turn is used up, and the ports of the step before show nothing any more (R186: one step). -/
def State.begin (s : State) : State :=
  { s with turns := s.turns.tail, turnNo := s.turnNo + 1, diag := none, rdPort := none }

/-- The word the sequencer executes: `SEQ` holds the code of its operation (R21). -/
def State.seqWord (s : State) : Nat := s.seq.code.toNat

/-- The refusal of a word that does not decode (R80, log 11). -/
def refusalOf : DecodeError → Refusal
  | .reserved code => .reservedCode code
  | .strayOperand code => .strayOperand code

/-- The operation a word stands for, executed. -/
def runWord (w : Nat) (s : State) : Outcome :=
  match decodeWord w with
  | .ok i => exec i s
  | .error e => .refused (refusalOf e)

/-- The unspecified registers after `rst` in mid-run: free values (R33, U2, log 5). -/
def freeRegisters (n : Nat) : Unspecified :=
  { raw := bitsOf (Config.freeRaw n), b := Vector.ofFn fun k => Config.freeByte n k, thc := Config.freeThc n,
    h10 := Config.freeH10 n, tmag := Config.freeTmag n, sign := Config.freeSign n }

/-- `rst` asserted for one step (R210): every register goes to its reset value, a running cycle is abandoned and the queues
are emptied. The parameters and the model's input fields are not registers and stay; a SLEEP after it has a draw of its own. -/
def resetStep (s : State) : State :=
  { State.afterReset s.cfg (freeRegisters s.turnNo) (fun c => Vector.ofFn fun j => Config.freeMem s.turnNo c j) with
    samples := s.samples, turns := s.turns, now := s.now, turnNo := s.turnNo, sleeps := s.sleeps + 1 }

/-- A sequencer step and a TRY_READ on channel `c` in one tick: both are evaluated against the state before it (R59). -/
def runTogether (c : Nat) (s : State) : Outcome :=
  match runWord s.seqWord s with
  | .next s' => tryReadFrom s s' c
  | .fault r => .fault r
  | .refused r => .refused r

/-- One step, for the agent whose turn it is. -/
def runTurn (t : Turn) (s : State) : Outcome :=
  match t with
  | .sequencer => runWord s.seqWord s
  | .consumer c => runWord (encode (.tryRead c)) s
  | .together c => runTogether c s
  | .issue w => runWord w s
  | .reset => .next (resetStep s)

/-- The state in which the operation `i` is the next to run, as the transition into its phase leaves it (R152). -/
def readyFor (i : Instr) (s : State) : State :=
  match i with
  | .idle => { s with seq := .idle, cycling := false }
  | .wake => enterWake s
  | .ack => enterAck s
  | .capture => enterCapture (s.onChan s.ch fun k => k.setDirection false)
  | .decode => { s with seq := .decode, capOk := true }
  | .publish => { s with seq := .publish, csumOk := true }
  | .sleep => enterSleep s
  | .tryRead _ => s
  | .cycle => { s with seq := .idle, cycling := false }

/-- The word `w` placed so that the very next step executes it (log 10). -/
def placeWord (s : State) (w : Nat) : State :=
  let s' :=
    match decodeWord w with
    | .ok i => readyFor i s
    | .error _ => s
  { s' with turns := .issue w :: s'.turns }

end Sys2Proof.Machine
end

