-- ==== Sys2Proof/Machine/Step.lean ====
section
/-! DEFINITION. One step of the block, and how an operation is placed to be the next one. -/

namespace Sys2Proof.Machine

/-- One step (R13): the agent whose turn it is executes one operation, or one tick of it. -/
def step (s : State) : Host.Outcome State Fault Refusal := runTurn s.turn s.begin

/-- `s` with the operation word `w` of `nbits` bits placed where the next step fetches its operation (log 10). -/
def State.withFetchWord (s : State) (nbits w : Nat) : State := placeWord s (w % 2 ^ nbits)

end Sys2Proof.Machine
end

