-- ==== Sys2Proof/Machine/Ports.lean ====
section
/-! DEFINITION. The output ports of the block after a step (R201, R186 of spec/60_exceptions.md). A port field the spec calls
unspecified is a free value (log 15). -/

namespace Sys2Proof.Machine

/-- `diag_kind`: the `ERR` code of the event (R186). -/
def DiagEvent.kind (ev : DiagEvent) : BitVec 2 := ev.err.code

/-- `diag_ch`: the sensor identifier (R186). -/
def DiagEvent.channel : DiagEvent → Nat
  | .acknowledgeTimeout ch _ => ch
  | .incompleteCapture ch _ => ch
  | .checksumMismatch ch _ _ _ _ => ch

/-- `diag_aux`: the failing half, the bit index, or 0 (R186). -/
def DiagEvent.aux : DiagEvent → BitVec 6
  | .acknowledgeTimeout _ half => (BitVec.ofBool half).setWidth 6
  | .incompleteCapture _ idx => BitVec.ofNat 6 idx
  | .checksumMismatch _ _ _ _ _ => 0

/-- `diag_raw` and `diag_bytes`; present for kind 3, unspecified otherwise (R186, U4). -/
def DiagEvent.frames (n : Nat) : DiagEvent → Frame × Frame
  | .acknowledgeTimeout _ _ => Config.freeDiagFrame n
  | .incompleteCapture _ _ => Config.freeDiagFrame n
  | .checksumMismatch _ raw bytes _ _ => (raw, bytes)

/-- `diag_thc` and `diag_sign`; present for kind 3, unspecified otherwise (R186, U4). -/
def DiagEvent.temperature (n : Nat) : DiagEvent → Byte × Bool
  | .acknowledgeTimeout _ _ => Config.freeDiagTemp n
  | .incompleteCapture _ _ => Config.freeDiagTemp n
  | .checksumMismatch _ _ _ thc sign => (thc, sign)

/-- The output ports (R201). -/
structure Ports where
  lineOut : List Level
  lineOe : List Bool
  rdSome : Bool
  rdData : Entry
  diagValid : Bool
  diagCh : Nat
  diagKind : BitVec 2
  diagAux : BitVec 6
  diagRaw : Frame
  diagBytes : Frame
  diagThc : Byte
  diagSign : Bool
  stSeq : Op4
  stCh : Nat
  stErr : BitVec 2
  stAckOk : Bool
  stCapOk : Bool
  stCsumOk : Bool
  stAcc : Bool
deriving DecidableEq, Repr

/-- `rd_some`: the TRY_READ of this step returned an entry (R201); 0 in a step without a TRY_READ, of which R201 says nothing
(DESIGN CHOICE, log 15). -/
def State.rdSome (s : State) : Bool :=
  match s.rdPort with
  | some (some _) => true
  | some none => false
  | none => false

/-- `rd_data`: the entry removed, unspecified where there is none (R201, U5). -/
def State.rdData (s : State) : Entry :=
  match s.rdPort with
  | some (some e) => e
  | some none => Config.freeRdData s.turnNo
  | none => Config.freeRdData s.turnNo

/-- The output ports in a state (R201). -/
def State.ports (s : State) : Ports where
  lineOut := s.chans.map (·.out)
  lineOe := s.chans.map (·.oe)
  rdSome := s.rdSome
  rdData := s.rdData
  diagValid := s.diag.isSome
  diagCh := (s.diag.map DiagEvent.channel).getD (Config.freeDiagHead s.turnNo).1
  diagKind := (s.diag.map DiagEvent.kind).getD (Config.freeDiagHead s.turnNo).2.1
  diagAux := (s.diag.map DiagEvent.aux).getD (Config.freeDiagHead s.turnNo).2.2
  diagRaw := (s.diag.map (DiagEvent.frames s.turnNo)).getD (Config.freeDiagFrame s.turnNo) |>.1
  diagBytes := (s.diag.map (DiagEvent.frames s.turnNo)).getD (Config.freeDiagFrame s.turnNo) |>.2
  diagThc := (s.diag.map (DiagEvent.temperature s.turnNo)).getD (Config.freeDiagTemp s.turnNo) |>.1
  diagSign := (s.diag.map (DiagEvent.temperature s.turnNo)).getD (Config.freeDiagTemp s.turnNo) |>.2
  stSeq := s.seq.code
  stCh := s.ch
  stErr := s.err.code
  stAckOk := s.ackOk
  stCapOk := s.capOk
  stCsumOk := s.csumOk
  stAcc := s.acc

end Sys2Proof.Machine
end

