-- ==== Sys2Proof/Machine/RunLength.lean ====
section
/-! DEFINITION. The run-length form of CAPTURE (R91 to R97, pseudocode R103 of spec/40_capture.md) on a line given as a function
of the tick, beside the per-tick form that the machine runs. R100 says that the two define the same function. -/

namespace Sys2Proof.Machine

/-- The level the line of `CH` shows at the `k`-th sampling tick from now, if every tick samples (R11, log 8). -/
def State.lineAhead (s : State) (k : Nat) : Level :=
  match s.samples[k]? with
  | some v => v
  | none => Config.freeLevel s.ch (s.now + k)

/-- The low-wait (R93): from the cursor `t`, low samples are consumed, at most `room` of them. The new cursor. -/
def lowWait (line : Nat → Level) : Nat → Nat → Nat
  | 0, t => t
  | room + 1, t => if line t = Level.low then lowWait line room (t + 1) else t

/-- The high count (R94): from the cursor `t`, high samples are consumed and counted on from `h`; nothing where the count
reaches its ceiling, which is `room` samples away. The new cursor and the count. -/
def highRun (line : Nat → Level) : Nat → Nat → Nat → Option (Nat × Nat)
  | 0, _, _ => none
  | room + 1, t, h => if line t = Level.high then highRun line room (t + 1) (h + 1) else some (t, h)

/-- How a capture ends, with the bits stored and the last tick: all bits captured, or the next bit's high count has reached the
ceiling. -/
inductive CaptureEnd where
  | captured (bits : List Level) (tEnd : Nat)
  | incomplete (bits : List Level) (tEnd : Nat)
deriving DecidableEq, Repr

/-- `todo` bits, the cursor at `t`, with `HIGH_CEIL = some n` (R103). `bits` are the bits stored before, in order. The last tick of a success is that of the low sample that ends the last bit (R96); of a failure, that of the sample that
brings the count to `n` (R97). -/
def captureBits (line : Nat → Level) (n : Nat) : Nat → Nat → List Level → CaptureEnd
  | 0, t, bits => .captured bits t
  | todo + 1, t, bits =>
    match highRun line n (lowWait line Config.lowCeil t) 0 with
    | none => .incomplete bits (lowWait line Config.lowCeil t + n - 1)
    | some (t', h) => captureBits line n todo t' (bits ++ [classify h])

/-- CAPTURE in run-length form, its first tick being tick 0 (R92, R103). -/
def captureRuns (line : Nat → Level) (n : Nat) : CaptureEnd := captureBits line n 40 Config.preTicks []

end Sys2Proof.Machine
end

