-- ==== Sys2Proof/Machine/Trace.lean ====
section
/-! DEFINITION. The notation of the spec for operations, results and line traces (R82, R83 of spec/30_encoding.md). -/

namespace Sys2Proof.Machine

/-! ## Line traces (R83) -/

/-- A run `L<n>` or `H<n>`: `len` ticks of one level. -/
structure Run where
  level : Level
  len : Nat
deriving DecidableEq, Repr

/-- `L<n>`. -/
def runLow (n : Nat) : Run := { level := Level.low, len := n }

/-- `H<n>`. -/
def runHigh (n : Nat) : Run := { level := Level.high, len := n }

/-- The samples of a list of runs, left to right in time. -/
def samplesOf (rs : List Run) : List Level := rs.flatMap fun r => List.replicate r.len r.level

/-- A line trace: runs, and the level for ever after them where it ends in `L*` or `H*`. -/
structure LineTrace where
  runs : List Run
  rest : Option Level
deriving DecidableEq, Repr

/-- The level of a trace at its tick `t`, nothing past its end. -/
def LineTrace.levelAt (tr : LineTrace) (t : Nat) : Option Level :=
  match (samplesOf tr.runs)[t]? with
  | some v => some v
  | none => tr.rest

/-- The first `n` samples of a trace that reaches that far. -/
def LineTrace.take (tr : LineTrace) (n : Nat) : List Level :=
  (List.range n).filterMap tr.levelAt

/-- `P(0) = L50 H20`, `P(1) = L50 H70`: one bit-period of nominal widths. -/
def pulse (v : Bool) : List Run := [runLow 50, runHigh (if v then 70 else 20)]

/-- `P(F[39]) P(F[38]) ... P(F[0])`. -/
def framePulses (f : Frame) : List Run := (bitsOf f).toList.flatMap pulse

/-- `bits(F)`: the forty bit-periods, then `L50 H*`. -/
def bitsTrace (f : Frame) : LineTrace := { runs := framePulses f ++ [runLow 50], rest := some Level.high }

/-! ## Operations and results (R82) -/

/-- A line `MNEMONIC c` of a trace; IDLE and DECODE are written without an operand. -/
structure TraceLine where
  instr : Instr
  channel : Option Nat
deriving DecidableEq, Repr

/-- The written operand agrees with the machine: the sequencer's operations and CYCLE work on `CH` (R78, log 12). -/
def TraceLine.agrees (l : TraceLine) (s : State) : Bool :=
  match l.instr with
  | .idle => l.channel == none
  | .wake => l.channel == some s.ch
  | .ack => l.channel == some s.ch
  | .capture => l.channel == some s.ch
  | .decode => l.channel == none
  | .publish => l.channel == some s.ch
  | .sleep => l.channel == some s.ch
  | .tryRead c => l.channel == some c
  | .cycle => l.channel == some s.ch

/-- What stands after `->`: the forms of R82, and for CYCLE the results of R172. A failure is its kind alone, as in R82's example for
DECODE (log 27). -/
inductive TraceResult where
  | ok
  | found (e : Entry)
  | absent
  | failed (k : ErrCode)
  | cycled (r : CycleResult)
deriving DecidableEq, Repr

/-- The failure that ended an operation, or success. -/
def failureOrOk (k : ErrCode) : TraceResult :=
  match k with
  | .none => .ok
  | .acknowledgeTimeout => .failed .acknowledgeTimeout
  | .incompleteCapture => .failed .incompleteCapture
  | .checksumMismatch => .failed .checksumMismatch

/-- The result of a sequencer operation of phase `p` once `SEQ` has left it. -/
def phaseResult (p : Phase) (s : State) : Option TraceResult :=
  if s.seq = p then none else some (failureOrOk s.err)

/-- The result of an operation that has left the state `s`; nothing while the operation is still running. R82 writes results for ACK,
TRY_READ and DECODE only: that IDLE, WAKE, PUBLISH and SLEEP have the result `ok`, PUBLISH also where the entry is dropped, is a DESIGN
CHOICE (log 27). -/
def resultOf (i : Instr) (s : State) : Option TraceResult :=
  match i with
  | .idle => phaseResult .idle s
  | .wake => phaseResult .wake s
  | .ack => phaseResult .ack s
  | .capture => phaseResult .capture s
  | .decode => phaseResult .decode s
  | .publish => phaseResult .publish s
  | .sleep => if s.seq = .sleep then none else some .ok
  | .tryRead _ =>
    match s.rdPort with
    | some (some e) => some (.found e)
    | some none => some .absent
    | none => none
  | .cycle => if s.seq = .idle then some (.cycled s.cycleResult) else none

end Sys2Proof.Machine
end

