-- ==== Sys2Proof/WellFormed.lean ====
section
/-! DEFINITION. When an operation is well formed on a block with given parameters. -/

namespace Sys2Proof

/-- The operand of TRY_READ names a channel, `0 ≤ c < NCH` (R133); no other operation carries an operand. -/
def Instr.wellFormed (p : Params) : Instr → Bool
  | .tryRead c => decide (c < p.nch)
  | .idle => true
  | .wake => true
  | .ack => true
  | .capture => true
  | .decode => true
  | .publish => true
  | .sleep => true
  | .cycle => true

end Sys2Proof
end

