-- ==== Sys2Proof/Safety.lean ====
section
/-! DEFINITION. The terms in which claims are stated: runs of the sequencer, the states a run can reach (`State.Inv`), what an
operation may read (`State.live`), what each of the two contexts holds, and the record of a queue's traffic. -/

namespace Sys2Proof.Machine

/-! ## Runs -/

/-- `n` sequencer steps one after the other (R152): each time the operation `SEQ` names. -/
def runSeq : Nat → State → Outcome
  | 0, s => .next s
  | n + 1, s =>
    match exec s.seq.instr s with
    | .next t => runSeq n t
    | .fault r => .fault r
    | .refused r => .refused r

/-- `n` steps of CYCLE one after the other. -/
def runCycle : Nat → State → Outcome
  | 0, s => .next s
  | n + 1, s =>
    match exec .cycle s with
    | .next t => runCycle n t
    | .fault r => .fault r
    | .refused r => .refused r

/-- Of the first `n` levels of a line, how many are `v`. -/
def levelCount (line : Nat → Level) (v : Level) : Nat → Nat
  | 0 => 0
  | n + 1 => levelCount line v n + (if line n = v then 1 else 0)

/-- What is left of the script after `n` sampling ticks, and the tick count. -/
def State.sampledBy (n : Nat) (s : State) : State := { s with samples := s.samples.drop n, now := s.now + n }

/-- The registers of channel `CH` exist and its line is an input (R90, R160). -/
def State.inputReady (s : State) : Prop := ∃ k, s.chans[s.ch]? = some k ∧ k.oe = false

/-! ## The states a run can reach -/

/-- The relation of the queue registers (R29). -/
def Channel.wf (k : Channel) : Prop := k.wr.val = (k.rd.val + k.count.val) % 2

/-- The flags and `ERR` as R151 and R154 leave them in each phase. -/
def State.flagsMatch (s : State) : Prop :=
  match s.seq with
  | .wake | .ack =>
    s.ackOk = false ∧ s.capOk = false ∧ s.csumOk = false ∧ s.acc = false ∧ s.err = .none
  | .capture =>
    s.ackOk = true ∧ s.capOk = false ∧ s.csumOk = false ∧ s.acc = false ∧ s.err = .none
  | .decode =>
    s.ackOk = true ∧ s.capOk = true ∧ s.csumOk = false ∧ s.acc = false ∧ s.err = .none
  | .publish =>
    s.ackOk = true ∧ s.capOk = true ∧ s.csumOk = true ∧ s.acc = false ∧ s.err = .none
  | .sleep | .idle =>
    match s.err with
    | .none => (s.ackOk = s.capOk ∧ s.capOk = s.csumOk) ∧ (s.acc = true → s.csumOk = true) ∧ (s.seq = .sleep → s.csumOk = true)
    | .acknowledgeTimeout => s.ackOk = false ∧ s.capOk = false ∧ s.csumOk = false ∧ s.acc = false
    | .incompleteCapture => s.ackOk = true ∧ s.capOk = false ∧ s.csumOk = false ∧ s.acc = false
    | .checksumMismatch => s.ackOk = true ∧ s.capOk = true ∧ s.csumOk = false ∧ s.acc = false

/-- The counters of a running capture in their ranges (R24): `CNT` stays below the ceiling of its phase. -/
def State.captureInRange (s : State) : Prop :=
  match s.cph with
  | .pre => s.cnt < Config.preTicks
  | .low => s.cnt < Config.lowCeil
  | .high => ∀ n, s.cfg.highCeil = some n → s.cnt < n
  | .idle | .done | .fail => False

/-- The decoder registers hold what DECODE made of `RAW` (R111, R113, R116). -/
def State.decoded (s : State) : Prop :=
  s.b = bytesOf s.raw ∧ s.sign = signOf s.raw ∧ s.thc = correctedHigh s.sign s.b[2] ∧
    s.h10 = humidityTenths s.b ∧ s.tmag = temperatureTenths s.thc s.b ∧ checkSumHolds s.b = true

/-- The invariant of the block: true after reset and kept by every step. -/
structure State.Inv (s : State) : Prop where
  /-- The parameters are legal (R7, R212). -/
  legal : s.cfg.legal = true
  /-- There is one set of channel registers per channel (R22, R28). -/
  channels : s.chans.length = s.cfg.nch
  /-- `0 ≤ CH < NCH` (R21). -/
  current : s.ch < s.cfg.nch
  /-- `WR[c] = (RD[c] + COUNT[c]) mod 2` for every channel (R29). -/
  queues : ∀ (c : Nat) (k : Channel), s.chans[c]? = some k → k.wf
  /-- Only the line of `CH` is driven, and only in WAKE (R64). -/
  driven : ∀ (c : Nat) (k : Channel), s.chans[c]? = some k → k.oe = true → s.seq = .wake ∧ c = s.ch
  /-- In WAKE the line of `CH` is driven, high exactly at the last tick (R157). -/
  wake : s.seq = .wake → s.tmr ≤ Config.wakeLowTicks ∧
    ∀ k, s.chans[s.ch]? = some k → k.oe = true ∧ (k.out = Level.high ↔ s.tmr = Config.wakeLowTicks)
  /-- The counters of a running acknowledge half (R23, R161, R162). -/
  ack : s.seq = .ack → s.polls.toNat < Config.ackBudget ∧ s.acnt.toNat ≤ threshold s.ah ∧ s.acnt.toNat ≤ s.polls.toNat
  /-- The counters of a running capture (R24). -/
  capture : s.seq = .capture → s.captureInRange
  /-- DECODE runs only after a capture that is done (R110). -/
  decode : s.seq = .decode → s.cph = .done
  /-- PUBLISH runs only on a frame decoded in this cycle (R131). -/
  publish : s.seq = .publish → s.decoded
  /-- A sleep has not lasted its duration yet (R170). -/
  sleep : s.seq = .sleep → s.tmr < sleepDuration s
  /-- Bit 7 of `THC` is always 0 (R25). -/
  thc : s.thc.getLsbD 7 = false
  /-- The flags and `ERR` fit the phase (R151, R154). -/
  flags : s.flagsMatch
  /-- A line that is an input has its driver level 1, as after reset (R33, R157). -/
  released : ∀ (c : Nat) (k : Channel), s.chans[c]? = some k → k.oe = false → k.out = Level.high
  /-- The counters stay in their ranges in every phase, running or left over (R23, R24, R118). -/
  counters : s.polls.toNat ≤ Config.ackBudget ∧ s.acnt.toNat ≤ 66 ∧
    ∀ n, s.cfg.highCeil = some n → s.cnt < max Config.lowCeil n
  /-- Only where `HIGH_CEIL` is `none` does a CYCLE outlast its step, and only in CAPTURE or after it (log 14). -/
  pass : s.cycling = true → s.cfg.highCeil = none ∧
    (s.seq = .capture ∨ s.seq = .decode ∨ s.seq = .publish ∨ s.seq = .sleep)

/-- A turn that the hardware's agents can take: the consumer names a channel that exists (R133). -/
def Turn.legal (p : Params) : Turn → Prop
  | .sequencer => True
  | .consumer c => c < p.nch
  | .together c => c < p.nch
  | .reset => True
  | .issue _ => False

/-! ## What an operation may read -/

/-- The slots of a queue that hold an entry; the others are cleared. -/
def Channel.live (k : Channel) : Channel :=
  { k with mem :=
      match k.count with
      | 0 => Vector.replicate 2 0
      | 1 => (Vector.replicate 2 0).set k.rd k.mem[k.rd]
      | 2 => k.mem }

/-- `RAW` with every cell cleared that no operation of this cycle has written yet (R30). -/
def State.liveRaw (s : State) : RawBits :=
  match s.seq with
  | .capture => Vector.ofFn fun i => if i < s.idx then s.raw[i] else false
  | .decode => s.raw
  | .idle | .wake | .ack | .publish | .sleep => Vector.replicate 40 false

/-- The state with every register cleared that R33 leaves unspecified after reset and that no operation of the running cycle
has written yet: what an operation may depend on (R30). -/
def State.live (s : State) : State :=
  { s with
    raw := s.liveRaw
    b := Vector.replicate 5 0
    thc := 0
    h10 := if s.seq = .publish then s.h10 else 0
    tmag := if s.seq = .publish then s.tmag else 0
    sign := if s.seq = .publish then s.sign else false
    chans := s.chans.map Channel.live }

/-! ## The two contexts -/

/-- A channel's queue cleared, its line driver kept. -/
def Channel.lineOnly (k : Channel) : Channel :=
  { k with mem := Vector.replicate 2 0, wr := 0, rd := 0, count := 0 }

/-- What the producer holds but for the queues and what it learned of them in `ACC`; the ports of the consumer and the model's
turn counter are left out. -/
def State.producer (s : State) : State :=
  { s with chans := s.chans.map Channel.lineOnly, acc := false, rdPort := none, turns := [], turnNo := 0 }

/-! ## The traffic of a queue -/

/-- `Q[c]`, the abstract queue of channel `c` (R28); empty where there is no such channel. -/
def State.queueOf (s : State) (c : Nat) : List Entry :=
  match s.chans[c]? with
  | some k => k.queue
  | none => []

/-- The sequencer takes this step. -/
def State.sequencerSteps (s : State) : Bool :=
  match s.turn with
  | .sequencer => true
  | .together _ => true
  | .consumer _ => false
  | .issue _ => false
  | .reset => false

/-- The channel the consumer reads in this step. -/
def State.reads (s : State) : Option Nat :=
  match s.turn with
  | .consumer c => some c
  | .together c => some c
  | .sequencer => none
  | .issue _ => none
  | .reset => none

/-- The entry that the step from `s` to `t` appended to `Q[c]`. -/
def acceptedIn (c : Nat) (s t : State) : List Entry :=
  if s.sequencerSteps ∧ s.seq = .publish ∧ s.ch = c ∧ t.acc then [s.entry] else []

/-- The entry that the step from `s` to `t` returned to the consumer of channel `c`. -/
def returnedIn (c : Nat) (s t : State) : List Entry :=
  if s.reads = some c then
    match t.rdPort with
    | some (some e) => [e]
    | some none => []
    | none => []
  else []

/-- The turns of the next `n` steps are scripted turns of the sequencer and the consumer. -/
def State.scripted (s : State) (n : Nat) : Prop :=
  n ≤ s.turns.length ∧ ∀ t ∈ s.turns.take n, t.legal s.cfg ∧ t ≠ .reset

/-- `n` steps of the machine, with the entries that were accepted into `Q[c]` and those that left it, in order. -/
def queueLog (c : Nat) : Nat → State → Option (List Entry × List Entry × State)
  | 0, s => some ([], [], s)
  | n + 1, s =>
    match step s with
    | .next t =>
      match queueLog c n t with
      | some (ins, outs, u) => some (acceptedIn c s t ++ ins, returnedIn c s t ++ outs, u)
      | none => none
    | .fault _ => none
    | .refused _ => none

end Sys2Proof.Machine
end

