-- ==== Sys2Proof/Certificates/Slice0/Obligations.lean ====
section
/-! DEFINITION. The statements about the model, for the provers. Each docstring names the rules of spec/ it comes from. -/

open Sys2Proof Sys2Proof.Machine

/-! ## Reset -/

/-- R33: the value of every register after reset, for every choice of parameters and of the unspecified registers; State.reset is
one such state (its parameters are the choice of log 6, its unspecified registers that of log 4). -/
def Obligations.ResetLeavesTheSpecifiedValues : Prop :=
  (∀ (p : Params) (u : Unspecified) (mem : Nat → Vector Entry 2) (s : State), s = State.afterReset p u mem →
    s.seq = .idle ∧ s.ch = 0 ∧ s.tmr = 0 ∧ s.chans.length = p.nch ∧
    (∀ (c : Nat) (k : Channel), s.chans[c]? = some k →
      k.oe = false ∧ k.out = Level.high ∧ k.queue = [] ∧ k.count = 0 ∧ k.rd = 0 ∧ k.wr = 0 ∧ k.mem = mem c) ∧
    s.ah = false ∧ s.polls = 0 ∧ s.acnt = 0 ∧ s.cph = .idle ∧ s.cnt = 0 ∧ s.idx = 0 ∧
    s.ackOk = false ∧ s.capOk = false ∧ s.csumOk = false ∧ s.acc = false ∧ s.err = .none ∧
    s.raw = u.raw ∧ s.b = u.b ∧ s.thc = u.thc.setWidth 8 ∧ s.h10 = u.h10 ∧ s.tmag = u.tmag ∧ s.sign = u.sign) ∧
  ∃ (p : Params) (u : Unspecified) (mem : Nat → Vector Entry 2), p.legal = true ∧ State.reset = State.afterReset p u mem

/-- R210: a step in which `rst` is asserted puts every register at its reset value wherever a cycle stood: no diagnostic event, no
PUBLISH, empty queues. A SLEEP after it has a draw of its own (log 7). -/
def Obligations.ResetAbandonsTheCycle : Prop :=
  ∀ (s : State) (rest : List Turn), s.turns = .reset :: rest →
    ∃ (u : Unspecified) (mem : Nat → Vector Entry 2) (t : State),
      step s = .next t ∧
      t = { State.afterReset s.cfg u mem with
            samples := s.samples, turns := rest, now := s.now, turnNo := s.turnNo + 1, sleeps := s.sleeps + 1 } ∧
      t.diag = none ∧ ∀ c, t.queueOf c = []

/-- R211: the first sequencer step after reset wakes channel 0. -/
def Obligations.FirstTickWakesChannelZero : Prop :=
  ∀ (p : Params) (u : Unspecified) (mem : Nat → Vector Entry 2) (rest : List Turn) (v : List Level), 1 ≤ p.nch →
    ∃ (t : State) (k : Channel),
      step { State.afterReset p u mem with turns := .sequencer :: rest, samples := v } = .next t ∧
      t.seq = .wake ∧ t.ch = 0 ∧ t.chans[0]? = some k ∧ k.driven = some Level.low ∧ t.tmr = 0 ∧ t.samples = v

/-! ## What a step runs -/

/-- R13, R21, R58, R82: whose turn a step is decides what it runs. The sequencer's word is the code in `SEQ`, and it decodes to
the operation of that phase. The ports of the step before are cleared first. -/
def Obligations.StepRunsTheFetchedOperation : Prop :=
  ∀ (s a : State) (rest : List Turn),
    a = { s with turns := rest, turnNo := s.turnNo + 1, diag := none, rdPort := none } →
    (s.turns = .sequencer :: rest →
      decodeWord s.seq.code.toNat = .ok s.seq.instr ∧ step s = exec s.seq.instr a) ∧
    (∀ c, s.turns = .consumer c :: rest → step s = exec (.tryRead c) a) ∧
    (∀ w i, s.turns = .issue w :: rest → decodeWord w = .ok i → step s = exec i a) ∧
    (∀ w e, s.turns = .issue w :: rest → decodeWord w = .error e → step s = .refused (refusalOf e))

/-- A word placed with withFetchWord is the next to run, in the state that the entry of its operation leaves (log 10). -/
def Obligations.PlacedWordRunsNext : Prop :=
  ∀ (s : State) (nbits w : Nat) (i : Instr), decodeTableWord nbits w = some i →
    step (s.withFetchWord nbits w) =
      exec i { readyFor i s with turnNo := (readyFor i s).turnNo + 1, diag := none, rdPort := none }

/-- R8, R58, U14, U15: past the script a step is a step of one of the agents, any of them. The consumer names a channel that
exists (log 24). -/
def Obligations.UnscriptedStepIsSomeAgents : Prop :=
  ∀ s : State, s.turns = [] → 0 < s.cfg.nch →
    ∃ t : Turn, t.legal s.cfg ∧ step s = step { s with turns := [t] }

/-! ## Codes -/

/-- R78 and the operation table: the nine codes, written out in bits; the codes of SEQ are 0 to 6. -/
def Obligations.OperationCodes : Prop :=
  decodeWord 0b0000 = .ok .idle ∧ decodeWord 0b0001 = .ok .wake ∧ decodeWord 0b0010 = .ok .ack ∧
  decodeWord 0b0011 = .ok .capture ∧ decodeWord 0b0100 = .ok .decode ∧ decodeWord 0b0101 = .ok .publish ∧
  decodeWord 0b0110 = .ok .sleep ∧ decodeWord 0b0111 = .ok (.tryRead 0) ∧ decodeWord 0b1000 = .ok .cycle ∧
  (Phase.idle.code = 0 ∧ Phase.wake.code = 1 ∧ Phase.ack.code = 2 ∧ Phase.capture.code = 3 ∧ Phase.decode.code = 4 ∧
    Phase.publish.code = 5 ∧ Phase.sleep.code = 6)

/-- Decode and encode agree, with every operand: no bit of a word is dropped, and each word has one meaning. -/
def Obligations.DecodeAndEncodeAgree : Prop :=
  (∀ i : Instr, decodeWord (encode i) = .ok i) ∧
  (∀ (w : Nat) (i : Instr), decodeWord w = .ok i → encode i = w) ∧
  (∀ (p : Params) (c : Nat), (Instr.tryRead c).wellFormed p = true ↔ c < p.nch)

/-- R80 (a): a trace that hands the block one of the codes 9 to 15 is refused. -/
def Obligations.ReservedCodesAreRefused : Prop :=
  ∀ (s : State) (rest : List Turn) (w : Nat), 9 ≤ w % 16 → s.turns = .issue w :: rest →
    decodeWord w = .error (.reserved (BitVec.ofNat 4 w)) ∧ step s = .refused (.reservedCode (BitVec.ofNat 4 w))

/-! ## IDLE and WAKE -/

/-- R153, R154: IDLE takes one tick and enters WAKE; the flags and `ERR` are cleared; the line of `CH` is driven low. Nothing else
changes. -/
def Obligations.IdleEntersWake : Prop :=
  ∀ (s : State) (k : Channel), s.seq = .idle → s.chans[s.ch]? = some k →
    exec .idle s = .next { s with
      seq := .wake, tmr := 0, ackOk := false, capOk := false, csumOk := false, acc := false, err := .none
      chans := s.chans.set s.ch { k with oe := true, out := Level.low }, now := s.now + 1 }

/-- R157: the three rows of WAKE's table, and that nothing else changes. -/
def Obligations.WakeTickRows : Prop :=
  ∀ (s : State) (k : Channel), s.seq = .wake → s.chans[s.ch]? = some k →
    (s.tmr + 1 < 20000 → exec .wake s = .next { s with tmr := s.tmr + 1, now := s.now + 1 }) ∧
    (s.tmr + 1 = 20000 → exec .wake s = .next { s with
      tmr := 20000, chans := s.chans.set s.ch { k with out := Level.high }, now := s.now + 1 }) ∧
    (s.tmr = 20000 → exec .wake s = .next { s with
      seq := .ack, ah := false, polls := 0, acnt := 0
      chans := s.chans.set s.ch { k with oe := false }, now := s.now + 1 })

/-- R156, R157, R73: from its entry WAKE drives the line low for 20000 ticks and high for one, and leaves it an input; it lasts
20001 ticks. -/
def Obligations.WakeSendsItsSymbol : Prop :=
  ∀ (s : State) (k : Channel), s.seq = .wake → s.tmr = 0 → s.chans[s.ch]? = some k → k.driven = some Level.low →
    (∀ n < 20000, runSeq n s = .next { s with tmr := n, now := s.now + n }) ∧
    runSeq 20000 s = .next { s with
      tmr := 20000, chans := s.chans.set s.ch { k with oe := true, out := Level.high }, now := s.now + 20000 } ∧
    runSeq 20001 s = .next { s with
      seq := .ack, tmr := 20000, ah := false, polls := 0, acnt := 0
      chans := s.chans.set s.ch { k with oe := false, out := Level.high }, now := s.now + 20001 }

/-! ## ACK -/

/-- R164 with the counting of R161 and R162 (log 2: POLLS and ACNT are written at the last poll too): the four rows, the success
test first, and that nothing else changes. -/
def Obligations.AckTickRows : Prop :=
  ∀ (s : State) (a : Count), s.seq = .ack → s.inputReady →
    a = (if s.level = (if s.ah then Level.high else Level.low) then s.acnt + 1 else s.acnt) →
    ((if s.ah then 60 else 65) < a.toNat → s.ah = false → exec .ack s = .next { s with
      ah := true, polls := 0, acnt := 0, samples := s.samples.tail, now := s.now + 1 }) ∧
    ((if s.ah then 60 else 65) < a.toNat → s.ah = true → exec .ack s = .next { s with
      ackOk := true, seq := .capture, cph := .pre, cnt := 0, idx := 0
      acnt := a, polls := s.polls + 1, samples := s.samples.tail, now := s.now + 1 }) ∧
    (a.toNat ≤ (if s.ah then 60 else 65) → s.polls + 1 = 255 → exec .ack s = .next { s with
      ackOk := false, err := .acknowledgeTimeout, diag := some (.acknowledgeTimeout s.ch s.ah), seq := .sleep, tmr := 0
      acnt := a, polls := 255, samples := s.samples.tail, now := s.now + 1 }) ∧
    (a.toNat ≤ (if s.ah then 60 else 65) → s.polls + 1 ≠ 255 → exec .ack s = .next { s with
      acnt := a, polls := s.polls + 1, samples := s.samples.tail, now := s.now + 1 })

/-- R161: the first half over whole runs of the line. It counts low samples, never loses a count to a high sample, succeeds at the
poll that brings the count to 66, and fails after 255 polls with at most 65. That `POLLS` and `ACNT` count the last poll of a failing
half too is log 2. -/
def Obligations.AckFirstHalf : Prop :=
  ∀ (s : State) (count : Nat → Nat), s.seq = .ack → s.ah = false → s.polls = 0 → s.acnt = 0 → s.inputReady →
    count = levelCount s.lineAhead Level.low →
    (∀ n < 255, count n ≤ 65 → runSeq n s = .next { s with
      acnt := BitVec.ofNat 9 (count n), polls := BitVec.ofNat 9 n, samples := s.samples.drop n, now := s.now + n }) ∧
    (∀ n < 255, count n = 65 → count (n + 1) = 66 → runSeq (n + 1) s = .next { s with
      ah := true, polls := 0, acnt := 0, samples := s.samples.drop (n + 1), now := s.now + (n + 1) }) ∧
    (count 255 ≤ 65 → runSeq 255 s = .next { s with
      ackOk := false, err := .acknowledgeTimeout, diag := some (.acknowledgeTimeout s.ch false), seq := .sleep, tmr := 0
      acnt := BitVec.ofNat 9 (count 255), polls := 255, samples := s.samples.drop 255, now := s.now + 255 })

/-- R162, R163: the second half counts high samples in the same way, succeeds at the poll that brings the count to 61, and then
CAPTURE is entered; it fails after 255 polls with at most 60. That `POLLS` and `ACNT` count the last poll of the half too is log 2. -/
def Obligations.AckSecondHalf : Prop :=
  ∀ (s : State) (count : Nat → Nat), s.seq = .ack → s.ah = true → s.polls = 0 → s.acnt = 0 → s.inputReady →
    count = levelCount s.lineAhead Level.high →
    (∀ n < 255, count n ≤ 60 → runSeq n s = .next { s with
      acnt := BitVec.ofNat 9 (count n), polls := BitVec.ofNat 9 n, samples := s.samples.drop n, now := s.now + n }) ∧
    (∀ n < 255, count n = 60 → count (n + 1) = 61 → runSeq (n + 1) s = .next { s with
      ackOk := true, seq := .capture, cph := .pre, cnt := 0, idx := 0
      acnt := 61, polls := BitVec.ofNat 9 (n + 1), samples := s.samples.drop (n + 1), now := s.now + (n + 1) }) ∧
    (count 255 ≤ 60 → runSeq 255 s = .next { s with
      ackOk := false, err := .acknowledgeTimeout, diag := some (.acknowledgeTimeout s.ch true), seq := .sleep, tmr := 0
      acnt := BitVec.ofNat 9 (count 255), polls := 255, samples := s.samples.drop 255, now := s.now + 255 })

/-- R164 (its last sentence), R228: how long an ACK lasts, by its outcome. -/
def Obligations.AckLastsWithinItsBudget : Prop :=
  ∀ s : State, s.seq = .ack → s.ah = false → s.polls = 0 → s.acnt = 0 → s.inputReady →
    ∃ (n : Nat) (t : State), runSeq n s = .next t ∧ t.now = s.now + n ∧
      (∀ j < n, ∃ u : State, runSeq j s = .next u ∧ u.seq = .ack) ∧
      ((t.seq = .capture ∧ t.ackOk = true ∧ 127 ≤ n ∧ n ≤ 510) ∨
       (t.seq = .sleep ∧ t.err = .acknowledgeTimeout ∧ t.ah = false ∧ n = 255) ∨
       (t.seq = .sleep ∧ t.err = .acknowledgeTimeout ∧ t.ah = true ∧ 321 ≤ n ∧ n ≤ 510))

/-! ## CAPTURE -/

/-- R99: the rows of the per-tick table, and that nothing else changes. `HIGH_CEIL = some 1` is left out of the row for the first
high sample of a bit (R94 fails the capture there, log 16). -/
def Obligations.CaptureTickRows : Prop :=
  ∀ (s a : State), s.seq = .capture → s.inputReady → a = { s with samples := s.samples.tail, now := s.now + 1 } →
    (s.cph = .pre → s.cnt + 1 < 4 → exec .capture s = .next { a with cnt := s.cnt + 1 }) ∧
    (s.cph = .pre → s.cnt + 1 = 4 → exec .capture s = .next { a with cph := .low, cnt := 0 }) ∧
    (s.cph = .low → s.level = Level.low → s.cnt + 1 < 256 → exec .capture s = .next { a with cnt := s.cnt + 1 }) ∧
    (s.cph = .low → s.level = Level.low → s.cnt + 1 = 256 → exec .capture s = .next { a with cph := .high, cnt := 0 }) ∧
    (s.cph = .low → s.level = Level.high → s.cfg.highCeil ≠ some 1 →
      exec .capture s = .next { a with cph := .high, cnt := 1 }) ∧
    (s.cph = .high → s.level = Level.high → (∀ n, s.cfg.highCeil = some n → s.cnt + 1 < n) →
      exec .capture s = .next { a with cnt := s.cnt + 1 }) ∧
    (s.cph = .high → s.level = Level.high → s.cfg.highCeil = some (s.cnt + 1) → exec .capture s = .next { a with
      cph := .fail, capOk := false, err := .incompleteCapture, diag := some (.incompleteCapture s.ch s.idx)
      seq := .sleep, tmr := 0 }) ∧
    (s.cph = .high → s.level = Level.low → s.idx.val < 39 → exec .capture s = .next { a with
      raw := s.raw.set s.idx (decide (30 < s.cnt)), idx := s.idx + 1, cph := .low, cnt := 1 }) ∧
    (s.cph = .high → s.level = Level.low → s.idx.val = 39 → exec .capture s = .next { a with
      raw := s.raw.set s.idx (decide (30 < s.cnt)), cph := .done, capOk := true, seq := .decode }) ∧
    (s.cph = .idle ∨ s.cph = .done ∨ s.cph = .fail → exec .capture s = .next a)

/-- R100, R103: from its entry the per-tick machine and the run-length pseudocode give the same bits, the same outcome and the same
last tick, on every line; and what CAPTURE leaves unchanged. -/
def Obligations.CaptureAgreesWithRunLengths : Prop :=
  ∀ (s : State) (n : Nat) (bits : List Level) (e : Nat),
    s.seq = .capture → s.cph = .pre → s.cnt = 0 → s.idx = 0 → s.inputReady → s.cfg.highCeil = some n → 0 < n →
    (captureRuns s.lineAhead n = .captured bits e →
      ∃ t : State, runSeq (e + 1) s = .next t ∧ t.raw.toList = bits ∧
        t = { s with seq := .decode, cph := .done, capOk := true, raw := t.raw, cnt := t.cnt, idx := 39
                     samples := s.samples.drop (e + 1), now := s.now + (e + 1) }) ∧
    (captureRuns s.lineAhead n = .incomplete bits e →
      ∃ t : State, runSeq (e + 1) s = .next t ∧ t.raw.toList = bits ++ s.raw.toList.drop bits.length ∧
        t.idx.val = bits.length ∧
        t = { s with seq := .sleep, tmr := 0, cph := .fail, capOk := false, err := .incompleteCapture
                     diag := some (.incompleteCapture s.ch t.idx), raw := t.raw, cnt := t.cnt, idx := t.idx
                     samples := s.samples.drop (e + 1), now := s.now + (e + 1) })

/-- R71, R91 to R96: forty low and high runs of any widths below their ceilings, and one more low sample, give forty bits, each 1
exactly when its high run is longer than 30. The four samples before them are ignored whatever they are (R92), and the first low
run may be empty. -/
def Obligations.EachHighRunIsOneBit : Prop :=
  ∀ (s : State) (skipped : List Level) (pulses : List (Nat × Nat)) (rest : List Level),
    s.seq = .capture → s.cph = .pre → s.cnt = 0 → s.idx = 0 → s.inputReady →
    skipped.length = 4 → pulses.length = 40 →
    (∀ q ∈ pulses, q.1 ≤ 256 ∧ 1 ≤ q.2 ∧ ∀ n, s.cfg.highCeil = some n → q.2 < n) →
    (∀ q ∈ pulses.tail, 1 ≤ q.1) →
    s.samples = skipped ++ samplesOf (pulses.flatMap fun q => [runLow q.1, runHigh q.2]) ++ Level.low :: rest →
    ∃ (n : Nat) (t : State), runSeq n s = .next t ∧
      n = 4 + (pulses.map fun q => q.1 + q.2).sum + 1 ∧
      t.raw.toList = pulses.map (fun q => decide (30 < q.2)) ∧
      t = { s with seq := .decode, cph := .done, capOk := true, raw := t.raw, cnt := t.cnt, idx := 39
                   samples := rest, now := s.now + n }

/-- R83, R104: a frame sent with nominal pulses is captured as it was sent, in `4 + 120 n + 70 (40 - n) + 1` ticks for `n` one-bits. -/
def Obligations.NominalFrameIsCaptured : Prop :=
  ∀ (s : State) (f : Frame) (skipped rest : List Level),
    s.seq = .capture → s.cph = .pre → s.cnt = 0 → s.idx = 0 → s.inputReady →
    (∀ n, s.cfg.highCeil = some n → 70 < n) → skipped.length = 4 →
    s.samples = skipped ++ samplesOf (framePulses f) ++ Level.low :: rest →
    ∃ (ones : Nat) (t : State), ones = (bitsOf f).toList.count true ∧
      runSeq (4 + 120 * ones + 70 * (40 - ones) + 1) s = .next t ∧
      t.seq = .decode ∧ t.capOk = true ∧ frameOf t.raw = f ∧ t.samples = rest

/-- R220: where `r` high samples of the acknowledgement are left when CAPTURE begins to look, they become bit 0, the frame is shifted
by one place and its last bit is lost, and the capture reports success. -/
def Obligations.AcknowledgeTailShiftsTheFrame : Prop :=
  ∀ (s : State) (f : Frame) (r : Nat) (skipped rest : List Level),
    s.seq = .capture → s.cph = .pre → s.cnt = 0 → s.idx = 0 → s.inputReady →
    (∀ n, s.cfg.highCeil = some n → 70 < n ∧ r < n) → skipped.length = 4 → 1 ≤ r →
    s.samples = skipped ++ samplesOf (runHigh r :: framePulses f) ++ rest →
    ∃ (n : Nat) (t : State), runSeq n s = .next t ∧ t.seq = .decode ∧ t.capOk = true ∧
      frameOf t.raw = (f >>> 1) ||| (if 30 < r then 0x8000000000#40 else 0#40)

/-- R98, R101: a line that stays low is captured as forty zero bits in 10245 ticks: the low-wait's ceiling is no failure. -/
def Obligations.StuckLowLineGivesZeros : Prop :=
  ∀ s : State, s.seq = .capture → s.cph = .pre → s.cnt = 0 → s.idx = 0 → s.inputReady →
    (∀ j < 10245, s.lineAhead j = Level.low) →
    runSeq 10245 s = .next { s with
      seq := .decode, cph := .done, capOk := true, raw := Vector.replicate 40 false, cnt := 0, idx := 39
      samples := s.samples.drop 10245, now := s.now + 10245 }

/-- R97, R101: on a line that stays high the capture fails at its 260th tick with `HIGH_CEIL = some 256`, in bit 0, and stores nothing;
with `HIGH_CEIL = none` it goes on for as long as the line stays high. -/
def Obligations.StuckHighLineFailsOrHangs : Prop :=
  ∀ s : State, s.seq = .capture → s.cph = .pre → s.cnt = 0 → s.idx = 0 → s.inputReady →
    (s.cfg.highCeil = some 256 → (∀ j < 260, s.lineAhead j = Level.high) → runSeq 260 s = .next { s with
      seq := .sleep, tmr := 0, cph := .fail, capOk := false, err := .incompleteCapture
      diag := some (.incompleteCapture s.ch 0), cnt := 255
      samples := s.samples.drop 260, now := s.now + 260 }) ∧
    (s.cfg.highCeil = none → ∀ n, (∀ j < n, s.lineAhead j = Level.high) →
      ∃ t : State, runSeq n s = .next t ∧ t.seq = .capture ∧ t.raw = s.raw)

/-! ## DECODE -/

/-- R111, R112, R113, R114, R116: what DECODE writes, whatever the checksum says: each byte as the weighted sum of its bits, the
checksum flag over the transmitted bytes, the sign, the corrected temperature-high, the tenths. It takes no tick. -/
def Obligations.DecodeWritesTheFrame : Prop :=
  ∀ s : State, s.seq = .decode → s.capOk = true →
    ∃ t : State, exec .decode s = .next t ∧
      (∀ k : Fin 5, t.b[k].toNat =
        ∑ j : Fin 8, (s.raw[8 * k.val + j.val]'(by omega)).toNat * 2 ^ (7 - j.val)) ∧
      (t.csumOk = true ↔ (t.b[0].toNat + t.b[1].toNat + t.b[2].toNat + t.b[3].toNat) % 256 = t.b[4].toNat) ∧
      t.sign = s.raw[16] ∧
      t.thc.toNat = (if s.raw[16] then t.b[2].toNat - 128 else t.b[2].toNat) ∧ t.thc.toNat < 128 ∧
      t.h10.toNat = 256 * t.b[0].toNat + t.b[1].toNat ∧
      t.tmag.toNat = 256 * t.thc.toNat + t.b[3].toNat ∧
      t = { s with b := t.b, csumOk := t.csumOk, sign := t.sign, thc := t.thc, h10 := t.h10, tmag := t.tmag
                   seq := t.seq, tmr := t.tmr, err := t.err, diag := t.diag }

/-- R115, R183, R184: with a good checksum DECODE goes to PUBLISH and raises nothing; with a bad one it raises ChecksumMismatch with
the frame, its bytes, the corrected temperature-high and the sign, and goes to SLEEP. -/
def Obligations.DecodeTransfersControl : Prop :=
  ∀ s : State, s.seq = .decode → s.capOk = true →
    ∃ t : State, exec .decode s = .next t ∧
      (t.csumOk = true → t.seq = .publish ∧ t.tmr = s.tmr ∧ t.err = s.err ∧ t.diag = s.diag) ∧
      (t.csumOk = false → t.seq = .sleep ∧ t.tmr = 0 ∧ t.err = .checksumMismatch ∧
        t.diag = some (.checksumMismatch s.ch (frameOf s.raw) (frameOf s.raw) t.thc t.sign) ∧ t.chans = s.chans)

/-- R121: on the stream of any five bytes, most significant bit first: the checksum law, the round trip and the sign law. -/
def Obligations.DecodeReturnsTheBytesSent : Prop :=
  ∀ (s : State) (b0 b1 b2 b3 b4 : Byte), s.seq = .decode → s.capOk = true → s.raw = bitsOf (b0 ++ b1 ++ b2 ++ b3 ++ b4) →
    ∃ t : State, exec .decode s = .next t ∧ t.b = #v[b0, b1, b2, b3, b4] ∧
      (t.csumOk = true ↔ (b0.toNat + b1.toNat + b2.toNat + b3.toNat) % 256 = b4.toNat) ∧
      (128 ≤ b2.toNat → s.raw[16] = true ∧ t.thc.toNat = b2.toNat - 128 ∧
        (t.tmag ≠ 0 → readingTemperature (entryOf t.h10 t.sign t.tmag) < 0)) ∧
      (b2.toNat < 128 → s.raw[16] = false ∧ t.thc = b2 ∧ 0 ≤ readingTemperature (entryOf t.h10 t.sign t.tmag))

/-- R53, R76: the views of the stream at wider widths; the queue entry is its first four bytes. -/
def Obligations.EntryIsTheFirstFourBytes : Prop :=
  ∀ s : State, s.seq = .decode → s.capOk = true →
    ∃ t : State, exec .decode s = .next t ∧
      t.h10 = (frameOf s.raw).extractLsb' 24 16 ∧
      t.sign = (frameOf s.raw).getLsbD 23 ∧
      t.tmag = (frameOf s.raw).extractLsb' 8 15 ∧
      t.b[4] = (frameOf s.raw).extractLsb' 0 8 ∧
      t.entry = (frameOf s.raw).extractLsb' 8 32

/-- R77: the Reading an entry denotes, as exact rationals, read off the entry's bits. -/
def Obligations.ReadingOfAnEntry : Prop :=
  ∀ e : Entry,
    readingHumidity e = ((e.toNat / 65536 : Nat) : Rat) / 10 ∧
    readingTemperature e = (-1) ^ (e.getLsbD 15).toNat * ((e.toNat % 32768 : Nat) : Rat) / 10 ∧
    ∀ (h : BitVec 16) (g : Bool) (m : BitVec 15), e = entryOf h g m →
      readingHumidity e = (h.toNat : Rat) / 10 ∧
      readingTemperature e = (if g then -((m.toNat : Rat) / 10) else (m.toNat : Rat) / 10)

/-- R222, R80 (c): the frame of zeros passes the checksum and is published as the entry 0. -/
def Obligations.ZeroFrameIsPublished : Prop :=
  ∀ (s : State) (k : Channel), s.seq = .decode → s.capOk = true → s.raw = Vector.replicate 40 false →
    s.chans[s.ch]? = some k → k.wf → k.queue.length < 2 →
    ∃ t u : State, exec .decode s = .next t ∧ t.seq = .publish ∧ exec .publish t = .next u ∧
      u.queueOf s.ch = k.queue ++ [0] ∧ u.acc = true ∧ u.err = s.err

/-! ## PUBLISH and TRY_READ -/

/-- R131, R132: PUBLISH appends the entry to a queue that is not full and sets `ACC`; on a full queue the entry is dropped, `ACC` is
cleared and nothing is raised. Then SLEEP. It takes no tick, and nothing else changes. -/
def Obligations.PublishAppendsOrDrops : Prop :=
  ∀ (s : State) (k : Channel), s.seq = .publish → s.csumOk = true → s.chans[s.ch]? = some k → k.wf →
    (k.queue.length < 2 →
      ∃ k' : Channel, exec .publish s = .next { s with
          chans := s.chans.set s.ch k', acc := true, seq := .sleep, tmr := 0 } ∧
        k'.queue = k.queue ++ [s.h10 ++ BitVec.ofBool s.sign ++ s.tmag] ∧ k'.oe = k.oe ∧ k'.out = k.out ∧ k'.wf) ∧
    (¬ k.queue.length < 2 → exec .publish s = .next { s with acc := false, seq := .sleep, tmr := 0 })

/-- R133: TRY_READ returns and removes the head of the queue, or returns None and changes nothing; a channel that does not exist is
refused. Only the queue of that channel and the result port change. -/
def Obligations.TryReadTakesTheHead : Prop :=
  ∀ (s : State) (c : Nat),
    (∀ k : Channel, s.chans[c]? = some k → k.queue = [] → exec (.tryRead c) s = .next { s with rdPort := some none }) ∧
    (∀ (k : Channel) (e : Entry) (q : List Entry), s.chans[c]? = some k → k.queue = e :: q →
      ∃ k' : Channel, exec (.tryRead c) s = .next { s with chans := s.chans.set c k', rdPort := some (some e) } ∧
        k'.queue = q ∧ k'.oe = k.oe ∧ k'.out = k.out ∧ (k.wf → k'.wf)) ∧
    (s.chans.length ≤ c → exec (.tryRead c) s = .refused (.noSuchChannel c))

/-- R135: the queue operations on the registers of a channel. -/
def Obligations.QueueRegisterRows : Prop :=
  (∀ (s : State) (k : Channel), s.seq = .publish → s.csumOk = true → s.chans[s.ch]? = some k →
    (k.count.val < 2 → exec .publish s = .next { s with
      chans := s.chans.set s.ch { k with
        mem := k.mem.set k.wr (s.h10 ++ BitVec.ofBool s.sign ++ s.tmag), wr := 1 - k.wr, count := k.count + 1 }
      acc := true, seq := .sleep, tmr := 0 }) ∧
    (k.count.val = 2 → exec .publish s = .next { s with acc := false, seq := .sleep, tmr := 0 })) ∧
  (∀ (s : State) (c : Nat) (k : Channel), s.chans[c]? = some k →
    (0 < k.count.val → exec (.tryRead c) s = .next { s with
      chans := s.chans.set c { k with rd := 1 - k.rd, count := k.count - 1 }, rdPort := some (some k.mem[k.rd]) }) ∧
    (k.count.val = 0 → exec (.tryRead c) s = .next { s with rdPort := some none }))

/-- R59: where the sequencer's step and a TRY_READ fall in one tick, both see the state before it, and the outcome is that of one of
the two orders: with a full queue PUBLISH first, with an empty queue TRY_READ first, and either order otherwise. -/
def Obligations.SameTickIsAnInterleaving : Prop :=
  ∀ (s a : State) (c : Nat) (k : Channel) (rest : List Turn), s.Inv → s.turns = .together c :: rest → s.chans[c]? = some k →
    a = { s with turns := rest, turnNo := s.turnNo + 1, diag := none, rdPort := none } →
    ∃ t : State, step s = .next t ∧
      t.rdPort = some k.queue.head? ∧
      (s.seq = .publish → c = s.ch → (t.acc = true ↔ k.queue.length < 2)) ∧
      (¬ (s.seq = .publish ∧ c = s.ch ∧ k.queue = []) →
        ∃ u : State, exec s.seq.instr a = .next u ∧ exec (.tryRead c) u = .next t) ∧
      (¬ (s.seq = .publish ∧ c = s.ch ∧ k.queue.length = 2) →
        ∃ u : State, exec (.tryRead c) a = .next u ∧ exec s.seq.instr u = .next t)

/-- R58, R136: over any run of scripted steps of the sequencer and the consumer, in any interleaving, what was in `Q[c]` and what was
accepted into it is, in that order, what left it and what is in it still. So entries leave in the order of their acceptance, each
at most once, and none is lost or invented; the queue never holds more than two. -/
def Obligations.QueueTrafficIsFifo : Prop :=
  ∀ (s t : State) (c n : Nat) (ins outs : List Entry), s.Inv → s.scripted n → queueLog c n s = some (ins, outs, t) →
    s.queueOf c ++ ins = outs ++ t.queueOf c ∧ (t.queueOf c).length ≤ 2

/-! ## SLEEP -/

/-- R170: one tick of SLEEP, and that nothing else changes. `TMR` counts the last tick too (log 3); the model's own
number of the next draw and its mark of a CYCLE under way move at the end (logs 7, 14). -/
def Obligations.SleepTickRows : Prop :=
  ∀ s : State, s.seq = .sleep →
    (s.tmr + 1 < sleepDuration s → exec .sleep s = .next { s with tmr := s.tmr + 1, now := s.now + 1 }) ∧
    (s.tmr + 1 = sleepDuration s → exec .sleep s = .next { s with
      tmr := s.tmr + 1, seq := .idle, ch := (s.ch + 1) % s.cfg.nch, sleeps := s.sleeps + 1, cycling := false, now := s.now + 1 })

/-- R170, R171: a SLEEP lasts a duration of at least 2 000 000 ticks and the inter-sensor delay, and then the next channel in the
round is in IDLE. During it only `TMR` moves. -/
def Obligations.SleepLastsItsDuration : Prop :=
  ∀ s : State, s.seq = .sleep → s.tmr = 0 →
    ∃ (d : Nat) (t : State), 2000000 + s.cfg.interSensor ≤ d ∧
      (∀ e, s.cfg.sleepExtra = some e → d = 2000000 + e + s.cfg.interSensor) ∧
      (∀ n < d, runSeq n s = .next { s with tmr := n, now := s.now + n }) ∧
      runSeq d s = .next t ∧
      t = { s with seq := .idle, ch := (s.ch + 1) % s.cfg.nch, tmr := t.tmr, sleeps := t.sleeps, cycling := false, now := s.now + d }

/-! ## CYCLE -/

/-- R172: CYCLE is one pass of the transition table. From IDLE, or from where a pass that is under way stands, its outcome is that of
running the sequencer's operations one after the other until `SEQ` is IDLE again. Only where `HIGH_CEIL` is none can a step of CYCLE
end before, in CAPTURE, and then the pass is marked as under way (log 14). -/
def Obligations.CycleIsOnePass : Prop :=
  ∀ s : State, s.Inv → s.seq = .idle ∨ s.cycling = true →
    ∃ (n : Nat) (t : State), 0 < n ∧ exec .cycle s = .next t ∧
      runSeq n s = .next (if t.seq = .idle then t else { t with cycling := s.cycling }) ∧
      (∀ j, 0 < j → j < n → ∃ u : State, runSeq j s = .next u ∧ u.seq ≠ .idle) ∧
      (s.cfg.highCeil ≠ none → t.seq = .idle) ∧
      (t.seq ≠ .idle → t.seq = .capture ∧ t.cycling = true)

/-- R172, R97: where the sequencer's own steps come back to IDLE, CYCLE comes back to it too, after as many steps of CYCLE as its CAPTURE
needs, in the same state. So a pass is left without a result only on a line on which CAPTURE never ends. -/
def Obligations.CycleEndsWhereThePassEnds : Prop :=
  ∀ (s u : State) (m : Nat), s.Inv → s.seq = .idle ∨ s.cycling = true → 0 < m → runSeq m s = .next u → u.seq = .idle →
    (∀ j, 0 < j → j < m → ∃ v : State, runSeq j s = .next v ∧ v.seq ≠ .idle) →
    ∃ k : Nat, 0 < k ∧ runCycle k s = .next u

/-- R173: with `HIGH_CEIL = some 256` every cycle ends, within the sum of the longest durations of its operations. -/
def Obligations.EveryCycleEnds : Prop :=
  ∀ s : State, s.Inv → s.seq = .idle → s.cfg.highCeil = some 256 →
    ∃ (n : Nat) (t : State), 0 < n ∧ runSeq n s = .next t ∧ t.seq = .idle ∧ t.ch = (s.ch + 1) % s.cfg.nch ∧
      t.now ≤ s.now + 1 + 20001 + 510 + (4 + 40 * (256 + 255) + 1) + sleepDuration s

/-- R137, R184: a cycle that fails leaves every queue as it was; one that does not adds its entry at the end of the queue of its
channel, or drops it, and leaves the others. A step of CYCLE that only had the SLEEP of its pass left leaves every queue. -/
def Obligations.FailedCycleLeavesTheQueues : Prop :=
  ∀ s t : State, s.Inv → exec .cycle s = .next t → t.seq = .idle →
    (t.err ≠ .none ∨ s.seq = .sleep → ∀ c, t.queueOf c = s.queueOf c) ∧
    (t.err = .none → ∀ c, c ≠ s.ch → t.queueOf c = s.queueOf c) ∧
    (t.err = .none → s.seq ≠ .sleep → t.acc = true → t.queueOf s.ch = s.queueOf s.ch ++ [t.entry]) ∧
    (t.err = .none → s.seq ≠ .sleep → t.acc = false → t.queueOf s.ch = s.queueOf s.ch ∧ (s.queueOf s.ch).length = 2)

/-- R172, R190: what CYCLE leaves unchanged: the parameters, the turns, the consumer's port, every other channel, and of its own channel
the consumer's pointer; a pass that has ended leaves its line an input. -/
def Obligations.CycleLeavesTheRest : Prop :=
  ∀ s t : State, s.Inv → exec .cycle s = .next t →
    t.cfg = s.cfg ∧ t.turns = s.turns ∧ t.turnNo = s.turnNo ∧ t.rdPort = s.rdPort ∧
    (∀ c, c ≠ s.ch → t.chans[c]? = s.chans[c]?) ∧
    ∃ k k' : Channel, s.chans[s.ch]? = some k ∧ t.chans[s.ch]? = some k' ∧ k'.rd = k.rd ∧ k'.oe = false ∧ k'.out = Level.high

/-- Programs P1 and P3 of 95_test_vectors.md for every frame: on a channel whose sensor acknowledges and sends the frame `f` with
nominal pulses, a cycle publishes the first four bytes of `f` exactly when its checksum holds (and drops them where the queue is full),
and otherwise reports ChecksumMismatch with `f` and leaves the queue. -/
def Obligations.CycleDeliversTheFrame : Prop :=
  ∀ (s : State) (f : Frame) (rest : List Level), s.Inv → s.seq = .idle → s.cfg.highCeil = some 256 →
    s.samples = samplesOf ([runHigh 30, runLow 66, runHigh 61, runLow 4] ++ framePulses f ++ [runLow 1]) ++ rest →
    ∃ t : State, exec .cycle s = .next t ∧ t.seq = .idle ∧ t.ch = (s.ch + 1) % s.cfg.nch ∧ t.samples = rest ∧
      frameOf t.raw = f ∧
      (((f.extractLsb' 32 8).toNat + (f.extractLsb' 24 8).toNat + (f.extractLsb' 16 8).toNat +
          (f.extractLsb' 8 8).toNat) % 256 = (f.extractLsb' 0 8).toNat →
        t.cycleResult = .published (decide ((s.queueOf s.ch).length < 2)) ∧
        t.queueOf s.ch = (if (s.queueOf s.ch).length < 2 then s.queueOf s.ch ++ [f.extractLsb' 8 32] else s.queueOf s.ch)) ∧
      (((f.extractLsb' 32 8).toNat + (f.extractLsb' 24 8).toNat + (f.extractLsb' 16 8).toNat +
          (f.extractLsb' 8 8).toNat) % 256 ≠ (f.extractLsb' 0 8).toNat →
        t.cycleResult = .checksumMismatch ∧ t.queueOf s.ch = s.queueOf s.ch ∧
        ∃ (h : Byte) (g : Bool), t.diag = some (.checksumMismatch s.ch f f h g))

/-! ## Failures -/

/-- R180, R181, R182, R183, R184, R187: a step of the sequencer raises nothing, or it raises one of the three failures, each only in
its own operation: `ERR` has the code, one event is emitted, `SEQ` is SLEEP, `TMR` is 0, the queues and `CH` are as they were. -/
def Obligations.OnlyThreeFailures : Prop :=
  ∀ s t : State, exec s.seq.instr s = .next t →
    (t.diag = s.diag ∧ (t.err = s.err ∨ (s.seq = .idle ∧ t.err = .none))) ∨
    (t.seq = .sleep ∧ t.tmr = 0 ∧ t.chans = s.chans ∧ t.ch = s.ch ∧
      ((s.seq = .ack ∧ s.polls + 1 = 255 ∧ t.ackOk = false ∧
          t.err = .acknowledgeTimeout ∧ t.diag = some (.acknowledgeTimeout s.ch s.ah)) ∨
       (s.seq = .capture ∧ t.cph = .fail ∧ t.capOk = false ∧
          t.err = .incompleteCapture ∧ t.diag = some (.incompleteCapture s.ch s.idx)) ∨
       (s.seq = .decode ∧ t.csumOk = false ∧ t.err = .checksumMismatch ∧
          t.diag = some (.checksumMismatch s.ch (frameOf s.raw) (joinBytes t.b) t.thc t.sign))))

/-- R78, R180, R186, R201: what the output ports show. -/
def Obligations.PortsShowTheRegistersAndTheEvent : Prop :=
  ∀ s : State,
    (∀ (c : Nat) (k : Channel), s.chans[c]? = some k → s.ports.lineOut[c]? = some k.out ∧ s.ports.lineOe[c]? = some k.oe) ∧
    s.ports.stSeq = s.seq.code ∧ s.ports.stCh = s.ch ∧ s.ports.stErr = s.err.code ∧ s.ports.stAckOk = s.ackOk ∧
    s.ports.stCapOk = s.capOk ∧ s.ports.stCsumOk = s.csumOk ∧ s.ports.stAcc = s.acc ∧
    (s.diag = none ↔ s.ports.diagValid = false) ∧
    (∀ (c : Nat) (half : Bool), s.diag = some (.acknowledgeTimeout c half) →
      s.ports.diagCh = c ∧ s.ports.diagKind = 1 ∧ s.ports.diagAux = (if half then 1 else 0)) ∧
    (∀ (c : Nat) (i : Fin 40), s.diag = some (.incompleteCapture c i) →
      s.ports.diagCh = c ∧ s.ports.diagKind = 2 ∧ s.ports.diagAux.toNat = i.val) ∧
    (∀ (c : Nat) (f b : Frame) (h : Byte) (g : Bool), s.diag = some (.checksumMismatch c f b h g) →
      s.ports.diagCh = c ∧ s.ports.diagKind = 3 ∧ s.ports.diagAux = 0 ∧ s.ports.diagRaw = f ∧ s.ports.diagBytes = b ∧
      s.ports.diagThc = h ∧ s.ports.diagSign = g) ∧
    (∀ e, s.rdPort = some (some e) → s.ports.rdSome = true ∧ s.ports.rdData = e) ∧
    (s.rdPort = some none → s.ports.rdSome = false)

/-! ## Refusals and completion -/

/-- U13, U12, R90, R110, R131, R160: when an operation is refused: out of sequence, on a line that is an output, without the operation
before it in the cycle. -/
def Obligations.OutOfSequenceIsRefused : Prop :=
  (∀ (p : Phase) (s : State), s.seq ≠ p → exec p.instr s = .refused .outOfSequence) ∧
  (∀ s : State, s.seq ≠ .idle → s.cycling = false → exec .cycle s = .refused .outOfSequence) ∧
  (∀ (s : State) (k : Channel), s.chans[s.ch]? = some k → k.oe = true →
    (s.seq = .ack → exec .ack s = .refused .lineIsOutput) ∧
    (s.seq = .capture → exec .capture s = .refused .lineIsOutput)) ∧
  (∀ s : State, s.seq = .decode → s.capOk = false → exec .decode s = .refused .noCapturedFrame) ∧
  (∀ (s : State) (k : Channel), s.chans[s.ch]? = some k → s.seq = .publish → s.csumOk = false →
    exec .publish s = .refused .frameNotValid)

/-- R61, R63, R150: in every state that a run can reach, the step of each of the agents completes: the operation `SEQ` names, a TRY_READ
on any channel, both in one tick, and reset. -/
def Obligations.NothingStopsTheBlock : Prop :=
  ∀ (s : State) (t : Turn) (rest : List Turn), s.Inv → s.turns = t :: rest → t.legal s.cfg → ∃ u : State, step s = .next u

/-! ## Whole-machine rules -/

/-- The invariant holds after reset, for all legal parameters and whatever the unspecified registers hold. -/
def Obligations.ResetMeetsTheInvariant : Prop :=
  State.reset.Inv ∧
  ∀ (p : Params) (u : Unspecified) (mem : Nat → Vector Entry 2), p.legal = true → (State.afterReset p u mem).Inv

/-- Every step keeps the invariant, whoever takes it: the queue registers stay consistent (R29), at most one line is driven and only in
WAKE (R64), the counters stay in the ranges of R23 and R24, the flags fit the phase (R151), PUBLISH only sees a frame decoded in its
cycle (R30). -/
def Obligations.StepKeepsTheInvariant : Prop :=
  ∀ s t : State, s.Inv → step s = .next t → t.Inv

/-- R7, R9, R21, R23, R24: in every state that a run can reach, each counter fits the width the spec gives it: `CH` its width for `NCH`
channels, `CNT` nine bits with the default ceiling (R99; a ceiling above 512 is log 26), `POLLS` and `ACNT` their
ranges within their nine bits, `TMR` the longest delay it counts. -/
def Obligations.CountersFitTheirWidths : Prop :=
  ∀ s : State, s.Inv →
    s.ch < 2 ^ s.cfg.chWidth ∧
    (s.cfg.highCeil = some 256 → s.cnt < 2 ^ Config.cntW ∧ s.cnt ≤ 255) ∧
    s.polls.toNat ≤ 255 ∧ s.acnt.toNat ≤ 66 ∧
    (s.seq = .wake → s.tmr ≤ 20000) ∧ (s.seq = .sleep → s.tmr < sleepDuration s)

/-- R152: the transition table is the only way `SEQ` changes, and `CH` changes only at the end of SLEEP. -/
def Obligations.TransitionTable : Prop :=
  ∀ s t : State, exec s.seq.instr s = .next t →
    (t.seq = s.seq ∧ (s.seq = .wake ∨ s.seq = .ack ∨ s.seq = .capture ∨ s.seq = .sleep) ∨
     (s.seq, t.seq) ∈ [(Phase.idle, Phase.wake), (.wake, .ack), (.ack, .capture), (.ack, .sleep), (.capture, .decode),
       (.capture, .sleep), (.decode, .publish), (.decode, .sleep), (.publish, .sleep), (.sleep, .idle)]) ∧
    t.ch = (if s.seq = .sleep ∧ t.seq = .idle then (s.ch + 1) % s.cfg.nch else s.ch)

/-- R30, with the entry actions of R152 counted for the operation that takes the transition: which operation may write which register.
`RD[c]` is never written by the sequencer (R29, R190), and the parameters by nobody (R26). -/
def Obligations.WhoWritesWhat : Prop :=
  ∀ s t : State, exec s.seq.instr s = .next t →
    (t.ah ≠ s.ah ∨ t.polls ≠ s.polls ∨ t.acnt ≠ s.acnt → s.seq = .ack ∨ s.seq = .wake) ∧
    (t.cph ≠ s.cph ∨ t.cnt ≠ s.cnt ∨ t.idx ≠ s.idx → s.seq = .capture ∨ s.seq = .ack) ∧
    (t.raw ≠ s.raw → s.seq = .capture) ∧
    (t.b ≠ s.b ∨ t.thc ≠ s.thc ∨ t.h10 ≠ s.h10 ∨ t.tmag ≠ s.tmag ∨ t.sign ≠ s.sign → s.seq = .decode) ∧
    (t.ackOk ≠ s.ackOk → s.seq = .ack ∨ s.seq = .idle) ∧
    (t.capOk ≠ s.capOk → s.seq = .capture ∨ s.seq = .idle) ∧
    (t.csumOk ≠ s.csumOk → s.seq = .decode ∨ s.seq = .idle) ∧
    (t.acc ≠ s.acc → s.seq = .publish ∨ s.seq = .idle) ∧
    (t.samples ≠ s.samples → s.seq = .ack ∨ s.seq = .capture) ∧
    t.cfg = s.cfg ∧ t.rdPort = s.rdPort ∧ t.chans.length = s.chans.length ∧
    ∀ (c : Nat) (k k' : Channel), s.chans[c]? = some k → t.chans[c]? = some k' →
      k'.rd = k.rd ∧
      (k'.oe ≠ k.oe ∨ k'.out ≠ k.out → c = s.ch ∧ (s.seq = .idle ∨ s.seq = .wake)) ∧
      (k'.mem ≠ k.mem ∨ k'.wr ≠ k.wr ∨ k'.count ≠ k.count → c = s.ch ∧ s.seq = .publish)

/-- R13: which operations take a tick. -/
def Obligations.OneTickOrNone : Prop :=
  (∀ s t : State, exec s.seq.instr s = .next t →
    t.now = (if s.seq = .decode ∨ s.seq = .publish then s.now else s.now + 1)) ∧
  (∀ (s t : State) (c : Nat), exec (.tryRead c) s = .next t → t.now = s.now)

/-- R30, R33: no operation depends on a register that reset leaves unspecified and that no operation of the running cycle has written:
with all of these cleared, a step ends in the same way, in a state that differs in such registers only. -/
def Obligations.OnlyWrittenRegistersAreRead : Prop :=
  ∀ s t : State, s.Inv → step s = .next t → ∃ t' : State, step s.live = .next t' ∧ t'.live = t.live

/-- R137, R190: the consumer cannot disturb the producer. A TRY_READ changes nothing the producer holds, and two states that differ only
in their queues, in `ACC` and on the consumer's ports go on alike under the sequencer, but for those. -/
def Obligations.ConsumerCannotDisturbTheProducer : Prop :=
  (∀ (s t : State) (c : Nat), exec (.tryRead c) s = .next t → t.producer = s.producer) ∧
  (∀ s s' t : State, s.producer = s'.producer → exec s.seq.instr s = .next t →
    ∃ t' : State, exec s'.seq.instr s' = .next t' ∧ t'.producer = t.producer)
end

