-- ==== Sys2Proof/Laws/State.lean ====
section
/-! SUPPORT. What each shared update of the state does to each field, one lemma a field, true by rfl. -/

namespace Sys2Proof.Machine

/-! ## `State.onChan` -/

@[simp] theorem State.onChan_seq (s : State) (c : Nat) (f : Channel → Channel) : (s.onChan c f).seq = s.seq := rfl
@[simp] theorem State.onChan_ch (s : State) (c : Nat) (f : Channel → Channel) : (s.onChan c f).ch = s.ch := rfl
@[simp] theorem State.onChan_tmr (s : State) (c : Nat) (f : Channel → Channel) : (s.onChan c f).tmr = s.tmr := rfl
@[simp] theorem State.onChan_chans (s : State) (c : Nat) (f : Channel → Channel) : (s.onChan c f).chans = s.chans.modify c f := rfl
@[simp] theorem State.onChan_ah (s : State) (c : Nat) (f : Channel → Channel) : (s.onChan c f).ah = s.ah := rfl
@[simp] theorem State.onChan_polls (s : State) (c : Nat) (f : Channel → Channel) : (s.onChan c f).polls = s.polls := rfl
@[simp] theorem State.onChan_acnt (s : State) (c : Nat) (f : Channel → Channel) : (s.onChan c f).acnt = s.acnt := rfl
@[simp] theorem State.onChan_cph (s : State) (c : Nat) (f : Channel → Channel) : (s.onChan c f).cph = s.cph := rfl
@[simp] theorem State.onChan_cnt (s : State) (c : Nat) (f : Channel → Channel) : (s.onChan c f).cnt = s.cnt := rfl
@[simp] theorem State.onChan_idx (s : State) (c : Nat) (f : Channel → Channel) : (s.onChan c f).idx = s.idx := rfl
@[simp] theorem State.onChan_raw (s : State) (c : Nat) (f : Channel → Channel) : (s.onChan c f).raw = s.raw := rfl
@[simp] theorem State.onChan_b (s : State) (c : Nat) (f : Channel → Channel) : (s.onChan c f).b = s.b := rfl
@[simp] theorem State.onChan_thc (s : State) (c : Nat) (f : Channel → Channel) : (s.onChan c f).thc = s.thc := rfl
@[simp] theorem State.onChan_h10 (s : State) (c : Nat) (f : Channel → Channel) : (s.onChan c f).h10 = s.h10 := rfl
@[simp] theorem State.onChan_tmag (s : State) (c : Nat) (f : Channel → Channel) : (s.onChan c f).tmag = s.tmag := rfl
@[simp] theorem State.onChan_ackOk (s : State) (c : Nat) (f : Channel → Channel) : (s.onChan c f).ackOk = s.ackOk := rfl
@[simp] theorem State.onChan_capOk (s : State) (c : Nat) (f : Channel → Channel) : (s.onChan c f).capOk = s.capOk := rfl
@[simp] theorem State.onChan_csumOk (s : State) (c : Nat) (f : Channel → Channel) : (s.onChan c f).csumOk = s.csumOk := rfl
@[simp] theorem State.onChan_sign (s : State) (c : Nat) (f : Channel → Channel) : (s.onChan c f).sign = s.sign := rfl
@[simp] theorem State.onChan_acc (s : State) (c : Nat) (f : Channel → Channel) : (s.onChan c f).acc = s.acc := rfl
@[simp] theorem State.onChan_err (s : State) (c : Nat) (f : Channel → Channel) : (s.onChan c f).err = s.err := rfl
@[simp] theorem State.onChan_diag (s : State) (c : Nat) (f : Channel → Channel) : (s.onChan c f).diag = s.diag := rfl
@[simp] theorem State.onChan_rdPort (s : State) (c : Nat) (f : Channel → Channel) : (s.onChan c f).rdPort = s.rdPort := rfl
@[simp] theorem State.onChan_cfg (s : State) (c : Nat) (f : Channel → Channel) : (s.onChan c f).cfg = s.cfg := rfl
@[simp] theorem State.onChan_samples (s : State) (c : Nat) (f : Channel → Channel) : (s.onChan c f).samples = s.samples := rfl
@[simp] theorem State.onChan_turns (s : State) (c : Nat) (f : Channel → Channel) : (s.onChan c f).turns = s.turns := rfl
@[simp] theorem State.onChan_now (s : State) (c : Nat) (f : Channel → Channel) : (s.onChan c f).now = s.now := rfl
@[simp] theorem State.onChan_turnNo (s : State) (c : Nat) (f : Channel → Channel) : (s.onChan c f).turnNo = s.turnNo := rfl
@[simp] theorem State.onChan_sleeps (s : State) (c : Nat) (f : Channel → Channel) : (s.onChan c f).sleeps = s.sleeps := rfl
@[simp] theorem State.onChan_cycling (s : State) (c : Nat) (f : Channel → Channel) : (s.onChan c f).cycling = s.cycling := rfl

/-! ## `State.tick` -/

@[simp] theorem State.tick_seq (s : State) : s.tick.seq = s.seq := rfl
@[simp] theorem State.tick_ch (s : State) : s.tick.ch = s.ch := rfl
@[simp] theorem State.tick_tmr (s : State) : s.tick.tmr = s.tmr := rfl
@[simp] theorem State.tick_chans (s : State) : s.tick.chans = s.chans := rfl
@[simp] theorem State.tick_ah (s : State) : s.tick.ah = s.ah := rfl
@[simp] theorem State.tick_polls (s : State) : s.tick.polls = s.polls := rfl
@[simp] theorem State.tick_acnt (s : State) : s.tick.acnt = s.acnt := rfl
@[simp] theorem State.tick_cph (s : State) : s.tick.cph = s.cph := rfl
@[simp] theorem State.tick_cnt (s : State) : s.tick.cnt = s.cnt := rfl
@[simp] theorem State.tick_idx (s : State) : s.tick.idx = s.idx := rfl
@[simp] theorem State.tick_raw (s : State) : s.tick.raw = s.raw := rfl
@[simp] theorem State.tick_b (s : State) : s.tick.b = s.b := rfl
@[simp] theorem State.tick_thc (s : State) : s.tick.thc = s.thc := rfl
@[simp] theorem State.tick_h10 (s : State) : s.tick.h10 = s.h10 := rfl
@[simp] theorem State.tick_tmag (s : State) : s.tick.tmag = s.tmag := rfl
@[simp] theorem State.tick_ackOk (s : State) : s.tick.ackOk = s.ackOk := rfl
@[simp] theorem State.tick_capOk (s : State) : s.tick.capOk = s.capOk := rfl
@[simp] theorem State.tick_csumOk (s : State) : s.tick.csumOk = s.csumOk := rfl
@[simp] theorem State.tick_sign (s : State) : s.tick.sign = s.sign := rfl
@[simp] theorem State.tick_acc (s : State) : s.tick.acc = s.acc := rfl
@[simp] theorem State.tick_err (s : State) : s.tick.err = s.err := rfl
@[simp] theorem State.tick_diag (s : State) : s.tick.diag = s.diag := rfl
@[simp] theorem State.tick_rdPort (s : State) : s.tick.rdPort = s.rdPort := rfl
@[simp] theorem State.tick_cfg (s : State) : s.tick.cfg = s.cfg := rfl
@[simp] theorem State.tick_samples (s : State) : s.tick.samples = s.samples := rfl
@[simp] theorem State.tick_turns (s : State) : s.tick.turns = s.turns := rfl
@[simp] theorem State.tick_now (s : State) : s.tick.now = s.now + 1 := rfl
@[simp] theorem State.tick_turnNo (s : State) : s.tick.turnNo = s.turnNo := rfl
@[simp] theorem State.tick_sleeps (s : State) : s.tick.sleeps = s.sleeps := rfl
@[simp] theorem State.tick_cycling (s : State) : s.tick.cycling = s.cycling := rfl

/-! ## `State.sampled` -/

@[simp] theorem State.sampled_seq (s : State) : s.sampled.seq = s.seq := rfl
@[simp] theorem State.sampled_ch (s : State) : s.sampled.ch = s.ch := rfl
@[simp] theorem State.sampled_tmr (s : State) : s.sampled.tmr = s.tmr := rfl
@[simp] theorem State.sampled_chans (s : State) : s.sampled.chans = s.chans := rfl
@[simp] theorem State.sampled_ah (s : State) : s.sampled.ah = s.ah := rfl
@[simp] theorem State.sampled_polls (s : State) : s.sampled.polls = s.polls := rfl
@[simp] theorem State.sampled_acnt (s : State) : s.sampled.acnt = s.acnt := rfl
@[simp] theorem State.sampled_cph (s : State) : s.sampled.cph = s.cph := rfl
@[simp] theorem State.sampled_cnt (s : State) : s.sampled.cnt = s.cnt := rfl
@[simp] theorem State.sampled_idx (s : State) : s.sampled.idx = s.idx := rfl
@[simp] theorem State.sampled_raw (s : State) : s.sampled.raw = s.raw := rfl
@[simp] theorem State.sampled_b (s : State) : s.sampled.b = s.b := rfl
@[simp] theorem State.sampled_thc (s : State) : s.sampled.thc = s.thc := rfl
@[simp] theorem State.sampled_h10 (s : State) : s.sampled.h10 = s.h10 := rfl
@[simp] theorem State.sampled_tmag (s : State) : s.sampled.tmag = s.tmag := rfl
@[simp] theorem State.sampled_ackOk (s : State) : s.sampled.ackOk = s.ackOk := rfl
@[simp] theorem State.sampled_capOk (s : State) : s.sampled.capOk = s.capOk := rfl
@[simp] theorem State.sampled_csumOk (s : State) : s.sampled.csumOk = s.csumOk := rfl
@[simp] theorem State.sampled_sign (s : State) : s.sampled.sign = s.sign := rfl
@[simp] theorem State.sampled_acc (s : State) : s.sampled.acc = s.acc := rfl
@[simp] theorem State.sampled_err (s : State) : s.sampled.err = s.err := rfl
@[simp] theorem State.sampled_diag (s : State) : s.sampled.diag = s.diag := rfl
@[simp] theorem State.sampled_rdPort (s : State) : s.sampled.rdPort = s.rdPort := rfl
@[simp] theorem State.sampled_cfg (s : State) : s.sampled.cfg = s.cfg := rfl
@[simp] theorem State.sampled_samples (s : State) : s.sampled.samples = s.samples.tail := rfl
@[simp] theorem State.sampled_turns (s : State) : s.sampled.turns = s.turns := rfl
@[simp] theorem State.sampled_now (s : State) : s.sampled.now = s.now + 1 := rfl
@[simp] theorem State.sampled_turnNo (s : State) : s.sampled.turnNo = s.turnNo := rfl
@[simp] theorem State.sampled_sleeps (s : State) : s.sampled.sleeps = s.sleeps := rfl
@[simp] theorem State.sampled_cycling (s : State) : s.sampled.cycling = s.cycling := rfl

/-! ## `enterWake` -/

@[simp] theorem enterWake_seq (s : State) : (enterWake s).seq = .wake := rfl
@[simp] theorem enterWake_ch (s : State) : (enterWake s).ch = s.ch := rfl
@[simp] theorem enterWake_tmr (s : State) : (enterWake s).tmr = 0 := rfl
@[simp] theorem enterWake_chans (s : State) : (enterWake s).chans = s.chans.modify s.ch fun k => (k.setDirection true).write Level.low := rfl
@[simp] theorem enterWake_ah (s : State) : (enterWake s).ah = s.ah := rfl
@[simp] theorem enterWake_polls (s : State) : (enterWake s).polls = s.polls := rfl
@[simp] theorem enterWake_acnt (s : State) : (enterWake s).acnt = s.acnt := rfl
@[simp] theorem enterWake_cph (s : State) : (enterWake s).cph = s.cph := rfl
@[simp] theorem enterWake_cnt (s : State) : (enterWake s).cnt = s.cnt := rfl
@[simp] theorem enterWake_idx (s : State) : (enterWake s).idx = s.idx := rfl
@[simp] theorem enterWake_raw (s : State) : (enterWake s).raw = s.raw := rfl
@[simp] theorem enterWake_b (s : State) : (enterWake s).b = s.b := rfl
@[simp] theorem enterWake_thc (s : State) : (enterWake s).thc = s.thc := rfl
@[simp] theorem enterWake_h10 (s : State) : (enterWake s).h10 = s.h10 := rfl
@[simp] theorem enterWake_tmag (s : State) : (enterWake s).tmag = s.tmag := rfl
@[simp] theorem enterWake_ackOk (s : State) : (enterWake s).ackOk = false := rfl
@[simp] theorem enterWake_capOk (s : State) : (enterWake s).capOk = false := rfl
@[simp] theorem enterWake_csumOk (s : State) : (enterWake s).csumOk = false := rfl
@[simp] theorem enterWake_sign (s : State) : (enterWake s).sign = s.sign := rfl
@[simp] theorem enterWake_acc (s : State) : (enterWake s).acc = false := rfl
@[simp] theorem enterWake_err (s : State) : (enterWake s).err = .none := rfl
@[simp] theorem enterWake_diag (s : State) : (enterWake s).diag = s.diag := rfl
@[simp] theorem enterWake_rdPort (s : State) : (enterWake s).rdPort = s.rdPort := rfl
@[simp] theorem enterWake_cfg (s : State) : (enterWake s).cfg = s.cfg := rfl
@[simp] theorem enterWake_samples (s : State) : (enterWake s).samples = s.samples := rfl
@[simp] theorem enterWake_turns (s : State) : (enterWake s).turns = s.turns := rfl
@[simp] theorem enterWake_now (s : State) : (enterWake s).now = s.now := rfl
@[simp] theorem enterWake_turnNo (s : State) : (enterWake s).turnNo = s.turnNo := rfl
@[simp] theorem enterWake_sleeps (s : State) : (enterWake s).sleeps = s.sleeps := rfl
@[simp] theorem enterWake_cycling (s : State) : (enterWake s).cycling = s.cycling := rfl

/-! ## `enterAck` -/

@[simp] theorem enterAck_seq (s : State) : (enterAck s).seq = .ack := rfl
@[simp] theorem enterAck_ch (s : State) : (enterAck s).ch = s.ch := rfl
@[simp] theorem enterAck_tmr (s : State) : (enterAck s).tmr = s.tmr := rfl
@[simp] theorem enterAck_chans (s : State) : (enterAck s).chans = s.chans.modify s.ch fun k => k.setDirection false := rfl
@[simp] theorem enterAck_ah (s : State) : (enterAck s).ah = false := rfl
@[simp] theorem enterAck_polls (s : State) : (enterAck s).polls = 0 := rfl
@[simp] theorem enterAck_acnt (s : State) : (enterAck s).acnt = 0 := rfl
@[simp] theorem enterAck_cph (s : State) : (enterAck s).cph = s.cph := rfl
@[simp] theorem enterAck_cnt (s : State) : (enterAck s).cnt = s.cnt := rfl
@[simp] theorem enterAck_idx (s : State) : (enterAck s).idx = s.idx := rfl
@[simp] theorem enterAck_raw (s : State) : (enterAck s).raw = s.raw := rfl
@[simp] theorem enterAck_b (s : State) : (enterAck s).b = s.b := rfl
@[simp] theorem enterAck_thc (s : State) : (enterAck s).thc = s.thc := rfl
@[simp] theorem enterAck_h10 (s : State) : (enterAck s).h10 = s.h10 := rfl
@[simp] theorem enterAck_tmag (s : State) : (enterAck s).tmag = s.tmag := rfl
@[simp] theorem enterAck_ackOk (s : State) : (enterAck s).ackOk = s.ackOk := rfl
@[simp] theorem enterAck_capOk (s : State) : (enterAck s).capOk = s.capOk := rfl
@[simp] theorem enterAck_csumOk (s : State) : (enterAck s).csumOk = s.csumOk := rfl
@[simp] theorem enterAck_sign (s : State) : (enterAck s).sign = s.sign := rfl
@[simp] theorem enterAck_acc (s : State) : (enterAck s).acc = s.acc := rfl
@[simp] theorem enterAck_err (s : State) : (enterAck s).err = s.err := rfl
@[simp] theorem enterAck_diag (s : State) : (enterAck s).diag = s.diag := rfl
@[simp] theorem enterAck_rdPort (s : State) : (enterAck s).rdPort = s.rdPort := rfl
@[simp] theorem enterAck_cfg (s : State) : (enterAck s).cfg = s.cfg := rfl
@[simp] theorem enterAck_samples (s : State) : (enterAck s).samples = s.samples := rfl
@[simp] theorem enterAck_turns (s : State) : (enterAck s).turns = s.turns := rfl
@[simp] theorem enterAck_now (s : State) : (enterAck s).now = s.now := rfl
@[simp] theorem enterAck_turnNo (s : State) : (enterAck s).turnNo = s.turnNo := rfl
@[simp] theorem enterAck_sleeps (s : State) : (enterAck s).sleeps = s.sleeps := rfl
@[simp] theorem enterAck_cycling (s : State) : (enterAck s).cycling = s.cycling := rfl

/-! ## `enterCapture` -/

@[simp] theorem enterCapture_seq (s : State) : (enterCapture s).seq = .capture := rfl
@[simp] theorem enterCapture_ch (s : State) : (enterCapture s).ch = s.ch := rfl
@[simp] theorem enterCapture_tmr (s : State) : (enterCapture s).tmr = s.tmr := rfl
@[simp] theorem enterCapture_chans (s : State) : (enterCapture s).chans = s.chans := rfl
@[simp] theorem enterCapture_ah (s : State) : (enterCapture s).ah = s.ah := rfl
@[simp] theorem enterCapture_polls (s : State) : (enterCapture s).polls = s.polls := rfl
@[simp] theorem enterCapture_acnt (s : State) : (enterCapture s).acnt = s.acnt := rfl
@[simp] theorem enterCapture_cph (s : State) : (enterCapture s).cph = .pre := rfl
@[simp] theorem enterCapture_cnt (s : State) : (enterCapture s).cnt = 0 := rfl
@[simp] theorem enterCapture_idx (s : State) : (enterCapture s).idx = 0 := rfl
@[simp] theorem enterCapture_raw (s : State) : (enterCapture s).raw = s.raw := rfl
@[simp] theorem enterCapture_b (s : State) : (enterCapture s).b = s.b := rfl
@[simp] theorem enterCapture_thc (s : State) : (enterCapture s).thc = s.thc := rfl
@[simp] theorem enterCapture_h10 (s : State) : (enterCapture s).h10 = s.h10 := rfl
@[simp] theorem enterCapture_tmag (s : State) : (enterCapture s).tmag = s.tmag := rfl
@[simp] theorem enterCapture_ackOk (s : State) : (enterCapture s).ackOk = true := rfl
@[simp] theorem enterCapture_capOk (s : State) : (enterCapture s).capOk = s.capOk := rfl
@[simp] theorem enterCapture_csumOk (s : State) : (enterCapture s).csumOk = s.csumOk := rfl
@[simp] theorem enterCapture_sign (s : State) : (enterCapture s).sign = s.sign := rfl
@[simp] theorem enterCapture_acc (s : State) : (enterCapture s).acc = s.acc := rfl
@[simp] theorem enterCapture_err (s : State) : (enterCapture s).err = s.err := rfl
@[simp] theorem enterCapture_diag (s : State) : (enterCapture s).diag = s.diag := rfl
@[simp] theorem enterCapture_rdPort (s : State) : (enterCapture s).rdPort = s.rdPort := rfl
@[simp] theorem enterCapture_cfg (s : State) : (enterCapture s).cfg = s.cfg := rfl
@[simp] theorem enterCapture_samples (s : State) : (enterCapture s).samples = s.samples := rfl
@[simp] theorem enterCapture_turns (s : State) : (enterCapture s).turns = s.turns := rfl
@[simp] theorem enterCapture_now (s : State) : (enterCapture s).now = s.now := rfl
@[simp] theorem enterCapture_turnNo (s : State) : (enterCapture s).turnNo = s.turnNo := rfl
@[simp] theorem enterCapture_sleeps (s : State) : (enterCapture s).sleeps = s.sleeps := rfl
@[simp] theorem enterCapture_cycling (s : State) : (enterCapture s).cycling = s.cycling := rfl

/-! ## `enterSleep` -/

@[simp] theorem enterSleep_seq (s : State) : (enterSleep s).seq = .sleep := rfl
@[simp] theorem enterSleep_ch (s : State) : (enterSleep s).ch = s.ch := rfl
@[simp] theorem enterSleep_tmr (s : State) : (enterSleep s).tmr = 0 := rfl
@[simp] theorem enterSleep_chans (s : State) : (enterSleep s).chans = s.chans := rfl
@[simp] theorem enterSleep_ah (s : State) : (enterSleep s).ah = s.ah := rfl
@[simp] theorem enterSleep_polls (s : State) : (enterSleep s).polls = s.polls := rfl
@[simp] theorem enterSleep_acnt (s : State) : (enterSleep s).acnt = s.acnt := rfl
@[simp] theorem enterSleep_cph (s : State) : (enterSleep s).cph = s.cph := rfl
@[simp] theorem enterSleep_cnt (s : State) : (enterSleep s).cnt = s.cnt := rfl
@[simp] theorem enterSleep_idx (s : State) : (enterSleep s).idx = s.idx := rfl
@[simp] theorem enterSleep_raw (s : State) : (enterSleep s).raw = s.raw := rfl
@[simp] theorem enterSleep_b (s : State) : (enterSleep s).b = s.b := rfl
@[simp] theorem enterSleep_thc (s : State) : (enterSleep s).thc = s.thc := rfl
@[simp] theorem enterSleep_h10 (s : State) : (enterSleep s).h10 = s.h10 := rfl
@[simp] theorem enterSleep_tmag (s : State) : (enterSleep s).tmag = s.tmag := rfl
@[simp] theorem enterSleep_ackOk (s : State) : (enterSleep s).ackOk = s.ackOk := rfl
@[simp] theorem enterSleep_capOk (s : State) : (enterSleep s).capOk = s.capOk := rfl
@[simp] theorem enterSleep_csumOk (s : State) : (enterSleep s).csumOk = s.csumOk := rfl
@[simp] theorem enterSleep_sign (s : State) : (enterSleep s).sign = s.sign := rfl
@[simp] theorem enterSleep_acc (s : State) : (enterSleep s).acc = s.acc := rfl
@[simp] theorem enterSleep_err (s : State) : (enterSleep s).err = s.err := rfl
@[simp] theorem enterSleep_diag (s : State) : (enterSleep s).diag = s.diag := rfl
@[simp] theorem enterSleep_rdPort (s : State) : (enterSleep s).rdPort = s.rdPort := rfl
@[simp] theorem enterSleep_cfg (s : State) : (enterSleep s).cfg = s.cfg := rfl
@[simp] theorem enterSleep_samples (s : State) : (enterSleep s).samples = s.samples := rfl
@[simp] theorem enterSleep_turns (s : State) : (enterSleep s).turns = s.turns := rfl
@[simp] theorem enterSleep_now (s : State) : (enterSleep s).now = s.now := rfl
@[simp] theorem enterSleep_turnNo (s : State) : (enterSleep s).turnNo = s.turnNo := rfl
@[simp] theorem enterSleep_sleeps (s : State) : (enterSleep s).sleeps = s.sleeps := rfl
@[simp] theorem enterSleep_cycling (s : State) : (enterSleep s).cycling = s.cycling := rfl

/-! ## `raise` -/

@[simp] theorem raise_seq (ev : DiagEvent) (s : State) : (raise ev s).seq = .sleep := rfl
@[simp] theorem raise_ch (ev : DiagEvent) (s : State) : (raise ev s).ch = s.ch := rfl
@[simp] theorem raise_tmr (ev : DiagEvent) (s : State) : (raise ev s).tmr = 0 := rfl
@[simp] theorem raise_chans (ev : DiagEvent) (s : State) : (raise ev s).chans = s.chans := rfl
@[simp] theorem raise_ah (ev : DiagEvent) (s : State) : (raise ev s).ah = s.ah := rfl
@[simp] theorem raise_polls (ev : DiagEvent) (s : State) : (raise ev s).polls = s.polls := rfl
@[simp] theorem raise_acnt (ev : DiagEvent) (s : State) : (raise ev s).acnt = s.acnt := rfl
@[simp] theorem raise_cph (ev : DiagEvent) (s : State) : (raise ev s).cph = s.cph := rfl
@[simp] theorem raise_cnt (ev : DiagEvent) (s : State) : (raise ev s).cnt = s.cnt := rfl
@[simp] theorem raise_idx (ev : DiagEvent) (s : State) : (raise ev s).idx = s.idx := rfl
@[simp] theorem raise_raw (ev : DiagEvent) (s : State) : (raise ev s).raw = s.raw := rfl
@[simp] theorem raise_b (ev : DiagEvent) (s : State) : (raise ev s).b = s.b := rfl
@[simp] theorem raise_thc (ev : DiagEvent) (s : State) : (raise ev s).thc = s.thc := rfl
@[simp] theorem raise_h10 (ev : DiagEvent) (s : State) : (raise ev s).h10 = s.h10 := rfl
@[simp] theorem raise_tmag (ev : DiagEvent) (s : State) : (raise ev s).tmag = s.tmag := rfl
@[simp] theorem raise_ackOk (ev : DiagEvent) (s : State) : (raise ev s).ackOk = s.ackOk := rfl
@[simp] theorem raise_capOk (ev : DiagEvent) (s : State) : (raise ev s).capOk = s.capOk := rfl
@[simp] theorem raise_csumOk (ev : DiagEvent) (s : State) : (raise ev s).csumOk = s.csumOk := rfl
@[simp] theorem raise_sign (ev : DiagEvent) (s : State) : (raise ev s).sign = s.sign := rfl
@[simp] theorem raise_acc (ev : DiagEvent) (s : State) : (raise ev s).acc = s.acc := rfl
@[simp] theorem raise_err (ev : DiagEvent) (s : State) : (raise ev s).err = ev.err := rfl
@[simp] theorem raise_diag (ev : DiagEvent) (s : State) : (raise ev s).diag = some ev := rfl
@[simp] theorem raise_rdPort (ev : DiagEvent) (s : State) : (raise ev s).rdPort = s.rdPort := rfl
@[simp] theorem raise_cfg (ev : DiagEvent) (s : State) : (raise ev s).cfg = s.cfg := rfl
@[simp] theorem raise_samples (ev : DiagEvent) (s : State) : (raise ev s).samples = s.samples := rfl
@[simp] theorem raise_turns (ev : DiagEvent) (s : State) : (raise ev s).turns = s.turns := rfl
@[simp] theorem raise_now (ev : DiagEvent) (s : State) : (raise ev s).now = s.now := rfl
@[simp] theorem raise_turnNo (ev : DiagEvent) (s : State) : (raise ev s).turnNo = s.turnNo := rfl
@[simp] theorem raise_sleeps (ev : DiagEvent) (s : State) : (raise ev s).sleeps = s.sleeps := rfl
@[simp] theorem raise_cycling (ev : DiagEvent) (s : State) : (raise ev s).cycling = s.cycling := rfl

/-! ## `State.begin` -/

@[simp] theorem State.begin_seq (s : State) : s.begin.seq = s.seq := rfl
@[simp] theorem State.begin_ch (s : State) : s.begin.ch = s.ch := rfl
@[simp] theorem State.begin_tmr (s : State) : s.begin.tmr = s.tmr := rfl
@[simp] theorem State.begin_chans (s : State) : s.begin.chans = s.chans := rfl
@[simp] theorem State.begin_ah (s : State) : s.begin.ah = s.ah := rfl
@[simp] theorem State.begin_polls (s : State) : s.begin.polls = s.polls := rfl
@[simp] theorem State.begin_acnt (s : State) : s.begin.acnt = s.acnt := rfl
@[simp] theorem State.begin_cph (s : State) : s.begin.cph = s.cph := rfl
@[simp] theorem State.begin_cnt (s : State) : s.begin.cnt = s.cnt := rfl
@[simp] theorem State.begin_idx (s : State) : s.begin.idx = s.idx := rfl
@[simp] theorem State.begin_raw (s : State) : s.begin.raw = s.raw := rfl
@[simp] theorem State.begin_b (s : State) : s.begin.b = s.b := rfl
@[simp] theorem State.begin_thc (s : State) : s.begin.thc = s.thc := rfl
@[simp] theorem State.begin_h10 (s : State) : s.begin.h10 = s.h10 := rfl
@[simp] theorem State.begin_tmag (s : State) : s.begin.tmag = s.tmag := rfl
@[simp] theorem State.begin_ackOk (s : State) : s.begin.ackOk = s.ackOk := rfl
@[simp] theorem State.begin_capOk (s : State) : s.begin.capOk = s.capOk := rfl
@[simp] theorem State.begin_csumOk (s : State) : s.begin.csumOk = s.csumOk := rfl
@[simp] theorem State.begin_sign (s : State) : s.begin.sign = s.sign := rfl
@[simp] theorem State.begin_acc (s : State) : s.begin.acc = s.acc := rfl
@[simp] theorem State.begin_err (s : State) : s.begin.err = s.err := rfl
@[simp] theorem State.begin_diag (s : State) : s.begin.diag = none := rfl
@[simp] theorem State.begin_rdPort (s : State) : s.begin.rdPort = none := rfl
@[simp] theorem State.begin_cfg (s : State) : s.begin.cfg = s.cfg := rfl
@[simp] theorem State.begin_samples (s : State) : s.begin.samples = s.samples := rfl
@[simp] theorem State.begin_turns (s : State) : s.begin.turns = s.turns.tail := rfl
@[simp] theorem State.begin_now (s : State) : s.begin.now = s.now := rfl
@[simp] theorem State.begin_turnNo (s : State) : s.begin.turnNo = s.turnNo + 1 := rfl
@[simp] theorem State.begin_sleeps (s : State) : s.begin.sleeps = s.sleeps := rfl
@[simp] theorem State.begin_cycling (s : State) : s.begin.cycling = s.cycling := rfl

end Sys2Proof.Machine
end

