-- ==== Sys2Proof/Laws/Ops.lean ====
section
/-! SUPPORT. What each shared precondition and each meaning can do: if it answers `next t`, then the precondition held and `t` is
the state its operation gives. -/

namespace Sys2Proof.Machine

/-! ## Channels -/

theorem modify_eq_set {l : List Channel} {c : Nat} {k : Channel} (h : l[c]? = some k) (f : Channel → Channel) :
    l.modify c f = l.set c (f k) := by
  rw [List.modify_eq_set_getElem?, h]
  rfl

theorem getElem?_modify_eq_some {l : List Channel} {c d : Nat} {f : Channel → Channel} {k' : Channel} :
    (l.modify c f)[d]? = some k' ↔ ∃ k, l[d]? = some k ∧ k' = if c = d then f k else k := by
  rw [List.getElem?_modify]
  cases l[d]? <;> simp [eq_comm]

/-! ## Preconditions that hold -/

theorem onPhase_of {s : State} {p : Phase} (h : s.seq = p) (r : Outcome) : onPhase p s r = r := by
  simp [onPhase, h]

theorem onCurrent_of {s : State} {k : Channel} (h : s.chans[s.ch]? = some k) (f : Channel → Outcome) :
    onCurrent s f = f k := by
  simp [onCurrent, h]

theorem onInputLine_of {s : State} (h : s.inputReady) (r : Outcome) : onInputLine s r = r := by
  obtain ⟨k, hk, ho⟩ := h
  simp [onInputLine, onCurrent, hk, ho]

/-! ## If it answers next -/

theorem onPhase_eq_next {p : Phase} {s t : State} {r : Outcome} :
    onPhase p s r = .next t ↔ s.seq = p ∧ r = .next t := by
  unfold onPhase
  split <;> simp_all

theorem onCurrent_eq_next {s t : State} {f : Channel → Outcome} :
    onCurrent s f = .next t ↔ ∃ k, s.chans[s.ch]? = some k ∧ f k = .next t := by
  unfold onCurrent
  cases s.chans[s.ch]? <;> simp

theorem onInputLine_eq_next {s t : State} {r : Outcome} :
    onInputLine s r = .next t ↔ s.inputReady ∧ r = .next t := by
  unfold onInputLine State.inputReady
  rw [onCurrent_eq_next]
  constructor
  · rintro ⟨k, hk, h⟩
    cases hoe : k.oe <;> simp_all
  · rintro ⟨⟨k, hk, hoe⟩, h⟩
    exact ⟨k, hk, by simp [hoe, h]⟩

theorem execIdle_eq_next {s t : State} :
    execIdle s = .next t ↔ s.seq = .idle ∧ (∃ k, s.chans[s.ch]? = some k) ∧ t = idleTick s := by
  simp only [execIdle, onPhase_eq_next, onCurrent_eq_next, Host.Outcome.next.injEq]
  constructor
  · rintro ⟨h, k, hk, e⟩; exact ⟨h, ⟨k, hk⟩, e.symm⟩
  · rintro ⟨h, ⟨k, hk⟩, e⟩; exact ⟨h, k, hk, e.symm⟩

theorem execWake_eq_next {s t : State} :
    execWake s = .next t ↔ s.seq = .wake ∧ (∃ k, s.chans[s.ch]? = some k) ∧ t = wakeTick s := by
  simp only [execWake, onPhase_eq_next, onCurrent_eq_next, Host.Outcome.next.injEq]
  constructor
  · rintro ⟨h, k, hk, e⟩; exact ⟨h, ⟨k, hk⟩, e.symm⟩
  · rintro ⟨h, ⟨k, hk⟩, e⟩; exact ⟨h, k, hk, e.symm⟩

theorem execAck_eq_next {s t : State} :
    execAck s = .next t ↔ s.seq = .ack ∧ s.inputReady ∧ t = ackTick s := by
  simp only [execAck, onPhase_eq_next, onInputLine_eq_next, Host.Outcome.next.injEq, @eq_comm _ t]

theorem execCapture_eq_next {s t : State} :
    execCapture s = .next t ↔ s.seq = .capture ∧ s.inputReady ∧ t = captureTick s := by
  simp only [execCapture, onPhase_eq_next, onInputLine_eq_next, Host.Outcome.next.injEq, @eq_comm _ t]

theorem execDecode_eq_next {s t : State} :
    execDecode s = .next t ↔ s.seq = .decode ∧ s.capOk = true ∧ t = decodeStep s := by
  simp only [execDecode, onPhase_eq_next]
  cases h : s.capOk <;> simp [@eq_comm _ t]

theorem execPublish_eq_next {s t : State} :
    execPublish s = .next t ↔
      s.seq = .publish ∧ s.csumOk = true ∧ ∃ k, s.chans[s.ch]? = some k ∧ t = publishStep k s := by
  simp only [execPublish, onPhase_eq_next, onCurrent_eq_next]
  cases h : s.csumOk <;> simp [@eq_comm _ t]

theorem execSleep_eq_next {s t : State} : execSleep s = .next t ↔ s.seq = .sleep ∧ t = sleepTick s := by
  simp only [execSleep, onPhase_eq_next, Host.Outcome.next.injEq, @eq_comm _ t]

theorem tryReadFrom_eq_next {pre post t : State} {c : Nat} :
    tryReadFrom pre post c = .next t ↔
      ∃ k, pre.chans[c]? = some k ∧
        t = { (if k.empty then post else post.onChan c fun k => k.pop) with rdPort := some k.head } := by
  unfold tryReadFrom
  cases pre.chans[c]? with
  | none => simp
  | some k => cases h : k.empty <;> simp [h, @eq_comm _ t]

/-- CYCLE begins a pass in IDLE, or goes on with the one that is under way. -/
theorem execCycle_eq_next {s t : State} :
    execCycle s = .next t ↔ (∃ k, s.chans[s.ch]? = some k) ∧
      ((s.seq = .idle ∧ t = markPass (cyclePass s)) ∨
        (s.seq ≠ .idle ∧ s.cycling = true ∧ t = markPass (cycleRest s))) := by
  unfold execCycle
  by_cases hs : s.seq = .idle <;> cases s.cycling <;>
    simp [hs, onPhase_eq_next, onCurrent_eq_next, @eq_comm _ t]

/-- What a step of the sequencer is: the operation of its phase, and the state that one gives. -/
theorem exec_seq_cases {s t : State} (h : exec s.seq.instr s = .next t) :
    (s.seq = .idle ∧ (∃ k, s.chans[s.ch]? = some k) ∧ t = idleTick s) ∨
    (s.seq = .wake ∧ (∃ k, s.chans[s.ch]? = some k) ∧ t = wakeTick s) ∨
    (s.seq = .ack ∧ s.inputReady ∧ t = ackTick s) ∨
    (s.seq = .capture ∧ s.inputReady ∧ t = captureTick s) ∨
    (s.seq = .decode ∧ s.capOk = true ∧ t = decodeStep s) ∨
    (s.seq = .publish ∧ s.csumOk = true ∧ ∃ k, s.chans[s.ch]? = some k ∧ t = publishStep k s) ∨
    (s.seq = .sleep ∧ t = sleepTick s) := by
  generalize hp : s.seq = p at h
  cases p
  · exact .inl ⟨rfl, (execIdle_eq_next.mp h).2⟩
  · exact .inr (.inl ⟨rfl, (execWake_eq_next.mp h).2⟩)
  · exact .inr (.inr (.inl ⟨rfl, (execAck_eq_next.mp h).2⟩))
  · exact .inr (.inr (.inr (.inl ⟨rfl, (execCapture_eq_next.mp h).2⟩)))
  · exact .inr (.inr (.inr (.inr (.inl ⟨rfl, (execDecode_eq_next.mp h).2⟩))))
  · exact .inr (.inr (.inr (.inr (.inr (.inl ⟨rfl, (execPublish_eq_next.mp h).2⟩)))))
  · exact .inr (.inr (.inr (.inr (.inr (.inr ⟨rfl, (execSleep_eq_next.mp h).2⟩)))))

end Sys2Proof.Machine
end

