-- ==== Sys2Proof/Laws/Runs.lean ====
section
/-! SUPPORT. Runs of the sequencer: how they compose, and what one more step of each operation is. -/

namespace Sys2Proof.Machine

@[simp] theorem runSeq_zero (s : State) : runSeq 0 s = .next s := rfl

theorem runSeq_succ_of_next {s t : State} (h : exec s.seq.instr s = .next t) (n : Nat) :
    runSeq (n + 1) s = runSeq n t := by
  simp only [runSeq, h]

/-- A run of `m + n` steps is a run of `m` steps and then one of `n`. -/
theorem runSeq_add_of_next {s t : State} {m : Nat} (h : runSeq m s = .next t) (n : Nat) :
    runSeq (m + n) s = runSeq n t := by
  induction m generalizing s with
  | zero =>
    cases h
    rw [Nat.zero_add]
  | succ m ih =>
    rw [Nat.succ_add]
    cases e : exec s.seq.instr s with
    | next u =>
      rw [runSeq_succ_of_next e] at h ⊢
      exact ih h
    | fault r => simp [runSeq, e] at h
    | refused r => simp [runSeq, e] at h

theorem runSeq_succ_right {s t : State} {n : Nat} (h : runSeq n s = .next t) :
    runSeq (n + 1) s = exec t.seq.instr t := by
  rw [runSeq_add_of_next h 1]
  unfold runSeq
  cases exec t.seq.instr t <;> rfl

/-! ## One more step of each phase -/

theorem runSeq_idle {s : State} {k : Channel} (h : s.seq = .idle) (hk : s.chans[s.ch]? = some k) (n : Nat) :
    runSeq (n + 1) s = runSeq n (idleTick s) :=
  runSeq_succ_of_next (by rw [h]; exact execIdle_eq_next.mpr ⟨h, ⟨k, hk⟩, rfl⟩) n

theorem runSeq_wake {s : State} {k : Channel} (h : s.seq = .wake) (hk : s.chans[s.ch]? = some k) (n : Nat) :
    runSeq (n + 1) s = runSeq n (wakeTick s) :=
  runSeq_succ_of_next (by rw [h]; exact execWake_eq_next.mpr ⟨h, ⟨k, hk⟩, rfl⟩) n

theorem runSeq_ack {s : State} (h : s.seq = .ack) (hi : s.inputReady) (n : Nat) :
    runSeq (n + 1) s = runSeq n (ackTick s) :=
  runSeq_succ_of_next (by rw [h]; exact execAck_eq_next.mpr ⟨h, hi, rfl⟩) n

theorem runSeq_capture {s : State} (h : s.seq = .capture) (hi : s.inputReady) (n : Nat) :
    runSeq (n + 1) s = runSeq n (captureTick s) :=
  runSeq_succ_of_next (by rw [h]; exact execCapture_eq_next.mpr ⟨h, hi, rfl⟩) n

theorem runSeq_decode {s : State} (h : s.seq = .decode) (hc : s.capOk = true) (n : Nat) :
    runSeq (n + 1) s = runSeq n (decodeStep s) :=
  runSeq_succ_of_next (by rw [h]; exact execDecode_eq_next.mpr ⟨h, hc, rfl⟩) n

theorem runSeq_publish {s : State} {k : Channel} (h : s.seq = .publish) (hc : s.csumOk = true)
    (hk : s.chans[s.ch]? = some k) (n : Nat) : runSeq (n + 1) s = runSeq n (publishStep k s) :=
  runSeq_succ_of_next (by rw [h]; exact execPublish_eq_next.mpr ⟨h, hc, k, hk, rfl⟩) n

theorem runSeq_sleep {s : State} (h : s.seq = .sleep) (n : Nat) : runSeq (n + 1) s = runSeq n (sleepTick s) :=
  runSeq_succ_of_next (by rw [h]; exact execSleep_eq_next.mpr ⟨h, rfl⟩) n

/-! ## One more step at the end of a run -/

theorem runSeq_then_wake {s t : State} {k : Channel} {n : Nat} (h : runSeq n s = .next t) (hs : t.seq = .wake)
    (hk : t.chans[t.ch]? = some k) : runSeq (n + 1) s = .next (wakeTick t) := by
  rw [runSeq_add_of_next h, runSeq_wake hs hk, runSeq_zero]

theorem runSeq_then_ack {s t : State} {n : Nat} (h : runSeq n s = .next t) (hs : t.seq = .ack) (hi : t.inputReady) :
    runSeq (n + 1) s = .next (ackTick t) := by
  rw [runSeq_add_of_next h, runSeq_ack hs hi, runSeq_zero]

theorem runSeq_then_capture {s t : State} {n : Nat} (h : runSeq n s = .next t) (hs : t.seq = .capture)
    (hi : t.inputReady) : runSeq (n + 1) s = .next (captureTick t) := by
  rw [runSeq_add_of_next h, runSeq_capture hs hi, runSeq_zero]

theorem runSeq_then_sleep {s t : State} {n : Nat} (h : runSeq n s = .next t) (hs : t.seq = .sleep) :
    runSeq (n + 1) s = .next (sleepTick t) := by
  rw [runSeq_add_of_next h, runSeq_sleep hs, runSeq_zero]

/-! ## Counting levels -/

theorem levelCount_add (line : Nat → Level) (v : Level) (m n : Nat) :
    levelCount line v (m + n) = levelCount line v m + levelCount (fun j => line (m + j)) v n := by
  induction n with
  | zero => rfl
  | succ n ih => rw [← Nat.add_assoc, levelCount, ih, levelCount, Nat.add_assoc]

theorem levelCount_all {line : Nat → Level} {v : Level} {n : Nat} (h : ∀ j < n, line j = v) : levelCount line v n = n := by
  induction n with
  | zero => rfl
  | succ n ih => rw [levelCount, ih fun j hj => h j (by omega), if_pos (h n (by omega))]

theorem levelCount_none {line : Nat → Level} {v : Level} {n : Nat} (h : ∀ j < n, line j ≠ v) : levelCount line v n = 0 := by
  induction n with
  | zero => rfl
  | succ n ih => rw [levelCount, ih fun j hj => h j (by omega), if_neg (h n (by omega))]

/-! ## The line ahead -/

/-- After `n` sampling ticks the line shows the level that stood `n` ticks ahead. -/
theorem level_of_sampledBy {s t : State} {n : Nat} (h1 : t.samples = s.samples.drop n) (h2 : t.now = s.now + n)
    (h3 : t.ch = s.ch) : t.level = s.lineAhead n := by
  unfold State.level State.lineAhead
  rw [h1, h2, h3]
  have e : s.samples[n]? = (s.samples.drop n).head? := by simp
  rw [e]
  cases s.samples.drop n <;> rfl

theorem lineAhead_of_sampledBy {s t : State} {n : Nat} (h1 : t.samples = s.samples.drop n) (h2 : t.now = s.now + n)
    (h3 : t.ch = s.ch) (j : Nat) : t.lineAhead j = s.lineAhead (n + j) := by
  unfold State.lineAhead
  rw [h1, h2, h3, List.getElem?_drop, Nat.add_assoc]

/-- The levels of a script of two runs. -/
theorem lineAhead_two_runs {s : State} {m n : Nat} {u v : Level}
    (h : s.samples = List.replicate m u ++ List.replicate n v) :
    (∀ j < m, s.lineAhead j = u) ∧ ∀ j < n, s.lineAhead (m + j) = v := by
  constructor
  · intro j hj
    simp [State.lineAhead, h, hj, List.getElem?_append_left]
  · intro j hj
    simp [State.lineAhead, h, hj]

end Sys2Proof.Machine
end

