-- ==== Sys2Proof/Laws/Captures.lean ====
section
/-! SUPPORT. Runs of CAPTURE over a stretch of one level (R92 to R95): what the pre-delay, a low-wait and a high run do as a
whole. -/

namespace Sys2Proof.Machine

/-- `s` after `p` ticks of a capture, with the capture registers as given. -/
def State.capturing (s : State) (p : Nat) (cph : CapturePhase) (cnt : Nat) (idx : Fin 40) (raw : RawBits) : State :=
  { s with cph := cph, cnt := cnt, idx := idx, raw := raw, samples := s.samples.drop p, now := s.now + p }

theorem captureTick_capturing (s : State) (p : Nat) (cph : CapturePhase) (cnt : Nat) (idx : Fin 40) (raw : RawBits) :
    captureTick (s.capturing p cph cnt idx raw) = captureRow (s.lineAhead p) (s.capturing (p + 1) cph cnt idx raw) := by
  unfold captureTick
  rw [level_of_sampledBy (s := s) (t := s.capturing p cph cnt idx raw) rfl rfl rfl]
  simp only [State.sampled, State.capturing, List.tail_drop, Nat.add_assoc]

/-- One more tick of a capture that is under way. -/
theorem runSeq_capturing {s : State} {p : Nat} {cph : CapturePhase} {cnt : Nat} {idx : Fin 40} {raw : RawBits}
    (hs : s.seq = .capture) (hi : s.inputReady) (h : runSeq p s = .next (s.capturing p cph cnt idx raw)) :
    runSeq (p + 1) s = .next (captureRow (s.lineAhead p) (s.capturing (p + 1) cph cnt idx raw)) := by
  rw [runSeq_then_capture h hs hi, captureTick_capturing]

/-- The pre-delay (R92): four ticks, whatever the line shows. -/
theorem runSeq_preDelay {s : State} (hs : s.seq = .capture) (hi : s.inputReady) (hp : s.cph = .pre) (hc : s.cnt = 0) :
    runSeq 4 s = .next (s.capturing 4 .low 0 s.idx s.raw) := by
  have h0 : runSeq 0 s = .next (s.capturing 0 .pre 0 s.idx s.raw) := by
    cases s
    cases hp
    cases hc
    rfl
  exact runSeq_capturing hs hi (runSeq_capturing hs hi (runSeq_capturing hs hi (runSeq_capturing hs hi h0)))

/-- `m` low samples of a low-wait that stays below its ceiling (R93). -/
theorem runSeq_lowStretch {s : State} {p cnt : Nat} {idx : Fin 40} {raw : RawBits} (hs : s.seq = .capture)
    (hi : s.inputReady) (h : runSeq p s = .next (s.capturing p .low cnt idx raw)) (m : Nat) (hm : cnt + m < 256)
    (hl : ∀ j < m, s.lineAhead (p + j) = Level.low) :
    runSeq (p + m) s = .next (s.capturing (p + m) .low (cnt + m) idx raw) := by
  induction m with
  | zero => exact h
  | succ m ih =>
    have e := runSeq_capturing hs hi (ih (by omega) fun j hj => hl j (by omega))
    rw [hl m (by omega)] at e
    rw [← Nat.add_assoc, e]
    show Host.Outcome.next (if cnt + m + 1 < 256 then _ else _) = _
    rw [if_pos (by omega)]
    rfl

/-- The low sample that brings a low-wait to its ceiling (R93, R98): the high count begins at 0. -/
theorem runSeq_lowCeiling {s : State} {p : Nat} {idx : Fin 40} {raw : RawBits} (hs : s.seq = .capture)
    (hi : s.inputReady) (h : runSeq p s = .next (s.capturing p .low 255 idx raw)) (hl : s.lineAhead p = Level.low) :
    runSeq (p + 1) s = .next (s.capturing (p + 1) .high 0 idx raw) := by
  rw [runSeq_capturing hs hi h, hl]
  rfl

/-- The first high sample of a bit (R94). -/
theorem runSeq_firstHigh {s : State} {p cnt : Nat} {idx : Fin 40} {raw : RawBits} (hs : s.seq = .capture)
    (hi : s.inputReady) (h : runSeq p s = .next (s.capturing p .low cnt idx raw)) (hl : s.lineAhead p = Level.high)
    (hn : s.cfg.highCeil ≠ some 1) : runSeq (p + 1) s = .next (s.capturing (p + 1) .high 1 idx raw) := by
  rw [runSeq_capturing hs hi h, hl]
  show Host.Outcome.next (if s.cfg.highCeil = some 1 then _ else _) = _
  rw [if_neg hn]
  rfl

/-- `m` high samples of a high run that stays below its ceiling (R94). -/
theorem runSeq_highStretch {s : State} {p cnt : Nat} {idx : Fin 40} {raw : RawBits} (hs : s.seq = .capture)
    (hi : s.inputReady) (h : runSeq p s = .next (s.capturing p .high cnt idx raw)) (m : Nat)
    (hm : ∀ n, s.cfg.highCeil = some n → cnt + m < n) (hl : ∀ j < m, s.lineAhead (p + j) = Level.high) :
    runSeq (p + m) s = .next (s.capturing (p + m) .high (cnt + m) idx raw) := by
  induction m with
  | zero => exact h
  | succ m ih =>
    have e := runSeq_capturing hs hi (ih (fun n hn => by have := hm n hn; omega) fun j hj => hl j (by omega))
    rw [hl m (by omega)] at e
    rw [← Nat.add_assoc, e]
    show Host.Outcome.next (if s.cfg.highCeil = some (cnt + m + 1) then _ else _) = _
    rw [if_neg fun hn => by have := hm _ hn; omega]
    rfl

/-- The low sample that ends a bit but the last (R95). -/
theorem runSeq_bitEnd {s : State} {p cnt : Nat} {idx : Fin 40} {raw : RawBits} (hs : s.seq = .capture)
    (hi : s.inputReady) (h : runSeq p s = .next (s.capturing p .high cnt idx raw)) (hl : s.lineAhead p = Level.low)
    (hx : idx.val < 39) :
    runSeq (p + 1) s = .next (s.capturing (p + 1) .low 1 (idx + 1) (raw.set idx (classify cnt))) := by
  rw [runSeq_capturing hs hi h, hl]
  show Host.Outcome.next (if idx.val < 39 then _ else _) = _
  rw [if_pos hx]
  rfl

/-- The low sample that ends the last bit (R96). -/
theorem runSeq_captureEnd {s : State} {p cnt : Nat} {idx : Fin 40} {raw : RawBits} (hs : s.seq = .capture)
    (hi : s.inputReady) (h : runSeq p s = .next (s.capturing p .high cnt idx raw)) (hl : s.lineAhead p = Level.low)
    (hx : idx.val = 39) :
    runSeq (p + 1) s = .next { s.capturing (p + 1) .done cnt idx (raw.set idx (classify cnt)) with
      capOk := true, seq := .decode } := by
  rw [runSeq_capturing hs hi h, hl]
  show Host.Outcome.next (if idx.val < 39 then _ else _) = _
  rw [if_neg (by omega)]
  rfl

end Sys2Proof.Machine
end

