-- ==== Sys2Proof/Laws/Cycles.lean ====
section
/-! SUPPORT. The pieces of CYCLE as runs of the sequencer's own steps (R172). -/

namespace Sys2Proof.Machine

/-- `op` repeated while `SEQ` holds `p` is a run of the sequencer, if one step in phase `p` is `op` where `P` holds and `op` keeps
`P`. All states before its end are in phase `p`. -/
theorem runSeq_whilePhase {p : Phase} {op : State → State} {P : State → Prop}
    (hop : ∀ s, P s → s.seq = p → exec s.seq.instr s = .next (op s)) (hP : ∀ s, P s → s.seq = p → P (op s)) (n : Nat)
    {s : State} (h : P s) :
    ∃ m ≤ n, runSeq m s = .next (whilePhase p op n s) ∧ P (whilePhase p op n s) ∧
      (∀ j < m, ∃ u, runSeq j s = .next u ∧ u.seq = p) ∧ (m < n → (whilePhase p op n s).seq ≠ p) := by
  induction n generalizing s with
  | zero => exact ⟨0, le_refl _, rfl, h, by omega, by omega⟩
  | succ n ih =>
    by_cases hs : s.seq = p
    · obtain ⟨m, hm, h1, h2, h3, h4⟩ := ih (hP s h hs)
      refine ⟨m + 1, by omega, ?_, ?_, ?_, ?_⟩
      · rw [runSeq_succ_of_next (hop s h hs), h1, whilePhase, if_pos hs]
      · rwa [whilePhase, if_pos hs]
      · rintro (_ | j) hj
        · exact ⟨s, rfl, hs⟩
        · rw [runSeq_succ_of_next (hop s h hs)]
          exact h3 j (by omega)
      · rw [whilePhase, if_pos hs]
        intro hlt
        exact h4 (by omega)
    · refine ⟨0, by omega, ?_, ?_, by omega, ?_⟩ <;> rw [whilePhase, if_neg hs]
      · rfl
      · exact h
      · exact fun _ => hs

/-- Sampling moves neither the channels nor `CH`, so the line stays an input through ACK and CAPTURE. -/
theorem inputReady_congr {s t : State} (h : s.inputReady) (hc : t.chans = s.chans) (hk : t.ch = s.ch) : t.inputReady := by
  obtain ⟨k, h1, h2⟩ := h
  exact ⟨k, by rw [hc, hk]; exact h1, h2⟩

/-- Marking a pass writes the mark alone: off where the pass is in IDLE again, on elsewhere. -/
theorem markPass_eq (s : State) :
    markPass s = if s.seq = .idle then { s with cycling := false } else { s with cycling := true } := by
  unfold markPass
  split <;> simp_all

@[simp] theorem markPass_seq (s : State) : (markPass s).seq = s.seq := rfl
@[simp] theorem markPass_chans (s : State) : (markPass s).chans = s.chans := rfl
@[simp] theorem markPass_ch (s : State) : (markPass s).ch = s.ch := rfl
@[simp] theorem markPass_cfg (s : State) : (markPass s).cfg = s.cfg := rfl
@[simp] theorem markPass_cycling (s : State) : (markPass s).cycling = decide (s.seq ≠ .idle) := rfl

theorem runCycle_succ_of_next {n : Nat} {s t : State} (h : exec .cycle s = .next t) :
    runCycle (n + 1) s = runCycle n t := by
  rw [runCycle, h]

end Sys2Proof.Machine
end

