-- ==== Sys2Proof/Laws/Operands.lean ====
section
/-! SUPPORT. The bit order of the stream, its bytes and the entry built from them (R50 to R53, R75, R76). -/

namespace Sys2Proof.Machine

/-- A number read most significant bit first, bit by bit. -/
theorem testBit_foldl_bits (l : List Level) (a i : Nat) :
    (l.foldl (fun acc v => 2 * acc + v.toNat) a).testBit i =
      if i < l.length then l.getD (l.length - 1 - i) false else a.testBit (i - l.length) := by
  induction l generalizing a with
  | nil => simp
  | cons v l ih =>
    rw [List.foldl_cons, ih]
    have hb : ∀ j, (2 * a + v.toNat).testBit (j + 1) = a.testBit j := by
      intro j
      rw [Nat.testBit_succ]
      congr 1
      cases v
      · simp
      · simp only [Bool.toNat_true]
        omega
    by_cases h : i < l.length
    · have h' : i < (v :: l).length := by simp; omega
      rw [if_pos h, if_pos h']
      have e : (v :: l).length - 1 - i = (l.length - 1 - i) + 1 := by simp; omega
      rw [e, List.getD_cons_succ]
    · rw [if_neg h]
      by_cases h2 : i = l.length
      · subst h2
        simp only [Nat.sub_self, List.length_cons, Nat.lt_succ_self, if_true, Nat.add_sub_cancel]
        cases v <;> simp [Bool.toNat]
      · have h' : ¬ i < (v :: l).length := by simp; omega
        rw [if_neg h']
        have e : i - l.length = (i - (v :: l).length) + 1 := by simp; omega
        rw [e, hb]

theorem rawAt_eq (raw : RawBits) {i : Nat} (h : i < 40) : rawAt raw i = raw[i] := by
  simp [rawAt, List.getD_eq_getElem?_getD, h]

/-- `F[j] = RAW[39 - j]` (R50). -/
theorem getLsbD_frameOf (raw : RawBits) {j : Nat} (h : j < 40) :
    (frameOf raw).getLsbD j = rawAt raw (39 - j) := by
  rw [frameOf, BitVec.getLsbD_ofNat, testBit_foldl_bits]
  simp [h, rawAt]

theorem rawAt_bitsOf (f : Frame) {i : Nat} (h : i < 40) : rawAt (bitsOf f) i = f.getLsbD (39 - i) := by
  rw [rawAt_eq _ h]
  simp [bitsOf]

theorem frameOf_bitsOf (f : Frame) : frameOf (bitsOf f) = f := by
  apply BitVec.eq_of_getLsbD_eq
  intro j hj
  rw [getLsbD_frameOf _ hj, rawAt_bitsOf _ (by omega)]
  congr 1
  omega

theorem bitsOf_frameOf (raw : RawBits) : bitsOf (frameOf raw) = raw := by
  ext i hi
  have h := rawAt_bitsOf (frameOf raw) hi
  rw [getLsbD_frameOf _ (by omega), show 39 - (39 - i) = i by omega, rawAt_eq _ hi, rawAt_eq _ hi] at h
  exact h

/-- A weighted sum of eight bits is the number they spell, most significant bit first (R51). -/
theorem sum_bits_eq_foldl (f : Nat → Level) :
    ((List.range 8).map fun j => (f j).toNat * 2 ^ (7 - j)).sum =
      ((List.range 8).map f).foldl (fun acc v => 2 * acc + v.toNat) 0 := by
  have e : List.range 8 = [0, 1, 2, 3, 4, 5, 6, 7] := rfl
  rw [e]
  simp only [List.map, List.sum_cons, List.sum_nil, List.foldl]
  omega

/-- `B[k][j] = RAW[8k + 7 - j]` (R51). -/
theorem getLsbD_byteAt (raw : RawBits) (k : Nat) {j : Nat} (h : j < 8) :
    (byteAt raw k).getLsbD j = rawAt raw (8 * k + (7 - j)) := by
  rw [byteAt, sum_bits_eq_foldl (fun i => rawAt raw (8 * k + i)), BitVec.getLsbD_ofNat, testBit_foldl_bits]
  simp only [List.length_map, List.length_range, h, decide_true, Bool.true_and, if_true]
  rw [List.getD_eq_getElem?_getD, List.getElem?_map, List.getElem?_range (by omega)]
  rfl

/-- The five bytes side by side are the frame (R51, R186). -/
theorem joinBytes_bytesOf (raw : RawBits) : joinBytes (bytesOf raw) = frameOf raw := by
  apply BitVec.eq_of_getLsbD_eq
  intro j hj
  rw [getLsbD_frameOf _ hj]
  have hb : ∀ k < 5, ∀ i < 8, j = 8 * (4 - k) + i → (byteAt raw k).getLsbD i = rawAt raw (39 - j) := by
    intro k hk i hi e
    rw [getLsbD_byteAt _ _ hi]
    congr 1
    omega
  simp only [joinBytes, bytesOf, BitVec.getLsbD_append]
  split
  · exact hb 4 (by omega) _ (by omega) (by omega)
  split
  · exact hb 3 (by omega) _ (by omega) (by omega)
  split
  · exact hb 2 (by omega) _ (by omega) (by omega)
  split
  · exact hb 1 (by omega) _ (by omega) (by omega)
  · exact hb 0 (by omega) _ (by omega) (by omega)

/-- The sign bit is bit 7 of temperature-high (R55, R75). -/
theorem signOf_eq (raw : RawBits) : signOf raw = (bytesOf raw)[2].getLsbD 7 := by
  show signOf raw = (byteAt raw 2).getLsbD 7
  rw [getLsbD_byteAt _ _ (by omega), rawAt_eq _ (by omega)]
  rfl

/-- Subtracting the sign's weight clears bit 7 (R113): `THC = 0b0 ++ B[2][6:0]`. -/
theorem correctedHigh_eq (b : Byte) : correctedHigh (b.getLsbD 7) b = b &&& 0x7F#8 := by
  revert b
  decide

theorem correctedHigh_toNat (b : Byte) : (correctedHigh (b.getLsbD 7) b).toNat = b.toNat % 128 := by
  revert b
  decide

theorem correctedHigh_bit7 (raw : RawBits) :
    (correctedHigh (signOf raw) (bytesOf raw)[2]).getLsbD 7 = false := by
  rw [signOf_eq, correctedHigh_eq]
  simp

end Sys2Proof.Machine
end

