-- ==== Sys2Proof/Laws/PerInstr.lean ====
section
/-! SUPPORT. What holds of every operation as syntax, one lemma per constructor. -/

namespace Sys2Proof.Laws.Fields

/-- The two fields of an operation's word give back its code and its operand (R78, log 11). -/
def Statement (i : Instr) : Prop := opField (encode i) = i.code ∧ operandField (encode i) = i.operand

theorem idle : Statement .idle := ⟨rfl, rfl⟩
theorem wake : Statement .wake := ⟨rfl, rfl⟩
theorem ack : Statement .ack := ⟨rfl, rfl⟩
theorem capture : Statement .capture := ⟨rfl, rfl⟩
theorem decode : Statement .decode := ⟨rfl, rfl⟩
theorem publish : Statement .publish := ⟨rfl, rfl⟩
theorem sleep : Statement .sleep := ⟨rfl, rfl⟩

theorem tryRead (c : Nat) : Statement (.tryRead c) := by
  have h : encode (.tryRead c) = 7 + 16 * c := rfl
  constructor
  · apply BitVec.eq_of_toNat_eq
    rw [h, opField, BitVec.toNat_ofNat]
    show (7 + 16 * c) % 16 = 7
    omega
  · rw [h, operandField]
    show (7 + 16 * c) / 16 = c
    omega

theorem cycle : Statement .cycle := ⟨rfl, rfl⟩

end Sys2Proof.Laws.Fields
end

