-- ==== Sys2Proof/Laws/Queue.lean ====
section
/-! SUPPORT. The register form of a queue (R29, R135) against its abstract list (R28). -/

namespace Sys2Proof.Machine

@[simp] theorem Channel.push_oe (k : Channel) (e : Entry) : (k.push e).oe = k.oe := rfl
@[simp] theorem Channel.push_out (k : Channel) (e : Entry) : (k.push e).out = k.out := rfl
@[simp] theorem Channel.push_rd (k : Channel) (e : Entry) : (k.push e).rd = k.rd := rfl
@[simp] theorem Channel.pop_oe (k : Channel) : k.pop.oe = k.oe := rfl
@[simp] theorem Channel.pop_out (k : Channel) : k.pop.out = k.out := rfl
@[simp] theorem Channel.pop_wr (k : Channel) : k.pop.wr = k.wr := rfl
@[simp] theorem Channel.pop_mem (k : Channel) : k.pop.mem = k.mem := rfl

theorem Channel.length_queue (k : Channel) : k.queue.length = k.count.val := by
  rcases k with ⟨oe, out, mem, wr, rd, count⟩
  fin_cases count <;> rfl

theorem Channel.full_iff (k : Channel) : k.full = true ↔ k.queue.length = 2 := by
  simp [Channel.full, Channel.length_queue]

theorem Channel.empty_iff (k : Channel) : k.empty = true ↔ k.queue = [] := by
  rw [← List.length_eq_zero_iff, Channel.length_queue]
  rcases k with ⟨oe, out, mem, wr, rd, count⟩
  fin_cases count <;> simp [Channel.empty]

/-- An entry pushed on a queue that is not full becomes its last (R131). -/
theorem Channel.push_queue {k : Channel} (h : k.wf) (hf : k.full = false) (e : Entry) :
    (k.push e).queue = k.queue ++ [e] := by
  rcases k with ⟨oe, out, mem, wr, rd, count⟩
  fin_cases count <;> fin_cases rd <;> fin_cases wr <;>
    simp_all [Channel.wf, Channel.full, Channel.push, Channel.queue]

/-- The entry at `RD` is the head, and a pop removes it (R133). -/
theorem Channel.queue_eq_head_cons {k : Channel} (h : k.empty = false) :
    k.queue = k.mem[k.rd] :: k.pop.queue := by
  rcases k with ⟨oe, out, mem, wr, rd, count⟩
  fin_cases count <;> fin_cases rd <;> simp_all [Channel.empty, Channel.pop, Channel.queue]

theorem Channel.head_eq (k : Channel) : k.head = k.queue.head? := by
  cases h : k.empty with
  | true => simp [Channel.head, h, k.empty_iff.mp h]
  | false => simp [Channel.head, h, Channel.queue_eq_head_cons h]

theorem Channel.push_wf {k : Channel} (h : k.wf) (hf : k.full = false) (e : Entry) : (k.push e).wf := by
  rcases k with ⟨oe, out, mem, wr, rd, count⟩
  fin_cases count <;> fin_cases rd <;> fin_cases wr <;> simp_all [Channel.wf, Channel.full, Channel.push]

theorem Channel.pop_wf {k : Channel} (h : k.wf) (he : k.empty = false) : k.pop.wf := by
  rcases k with ⟨oe, out, mem, wr, rd, count⟩
  fin_cases count <;> fin_cases rd <;> fin_cases wr <;> simp_all [Channel.wf, Channel.empty, Channel.pop]

theorem Channel.afterReset_wf (m : Vector Entry 2) : (Channel.afterReset m).wf := by
  simp [Channel.wf, Channel.afterReset]

end Sys2Proof.Machine
end

