-- ==== Sys2Proof/Tests/Slice0.lean ====
section
/-! SUPPORT. Tests of the model, their expected results from spec/ (95_test_vectors.md unless said otherwise), and for each
obligation with hypotheses a state that meets them. -/

namespace Sys2Proof.Tests

open Sys2Proof Sys2Proof.Machine

/-! ## Well-formed operations and legal parameters -/

theorem test_wellFormed_channel : (Instr.tryRead 0).wellFormed Config.default = true := by decide
theorem test_illFormed_channel : (Instr.tryRead 1).wellFormed Config.default = false := by decide
theorem test_illFormed_two_channels :
    (Instr.tryRead 2).wellFormed { Config.default with nch := 2 } = false := by decide
theorem test_illegal_no_channel : { Config.default with nch := 0 : Params }.legal = false := by decide
theorem test_illegal_zero_ceiling : { Config.default with highCeil := some 0 : Params }.legal = false := by decide
theorem test_legal_default : Config.default.legal = true := by decide

/-! ## Words (R78, opcode_table.json) -/

theorem test_decode_idle : decodeTableWord 8 0b0000 = some .idle := by decide
theorem test_decode_wake : decodeTableWord 8 0b0001 = some .wake := by decide
theorem test_decode_ack : decodeTableWord 8 0b0010 = some .ack := by decide
theorem test_decode_capture : decodeTableWord 8 0b0011 = some .capture := by decide
theorem test_decode_decode : decodeTableWord 8 0b0100 = some .decode := by decide
theorem test_decode_publish : decodeTableWord 8 0b0101 = some .publish := by decide
theorem test_decode_sleep : decodeTableWord 8 0b0110 = some .sleep := by decide
theorem test_decode_tryRead : decodeTableWord 8 0b0111 = some (.tryRead 0) := by decide
theorem test_decode_cycle : decodeTableWord 8 0b1000 = some .cycle := by decide
theorem test_decode_tryRead_channel : decodeWord 0x27 = .ok (.tryRead 2) := by decide
theorem test_decode_reserved :
    [9, 10, 11, 12, 13, 14, 15].map (decodeTableWord 8) = List.replicate 7 none := by decide
theorem test_decode_stray : decodeWord 0x11 = .error (.strayOperand 1) := by decide
theorem test_decode_bytes : decodeBytes [0x17, 0x02] = .ok (.tryRead 0x21) := by decide
theorem test_encode_tryRead : encode (.tryRead 2) = 0x27 := by decide

/-! ## Every operation runs as the first after reset -/

/-- The step answers a next state. -/
def runsNext (o : Outcome) : Bool :=
  match o with
  | .next _ => true
  | .fault _ => false
  | .refused _ => false

theorem test_first_idle : runsNext (step (State.reset.withFetchWord 8 0)) = true := by decide
theorem test_first_wake : runsNext (step (State.reset.withFetchWord 8 1)) = true := by decide
theorem test_first_ack : runsNext (step (State.reset.withFetchWord 8 2)) = true := rfl
theorem test_first_capture : runsNext (step (State.reset.withFetchWord 8 3)) = true := rfl
theorem test_first_decode : runsNext (step (State.reset.withFetchWord 8 4)) = true := by decide
theorem test_first_publish : runsNext (step (State.reset.withFetchWord 8 5)) = true := by decide
theorem test_first_sleep : runsNext (step (State.reset.withFetchWord 8 6)) = true := rfl
theorem test_first_tryRead : runsNext (step (State.reset.withFetchWord 8 7)) = true := by decide
theorem test_first_cycle : runsNext (step (State.reset.withFetchWord 8 8)) = true := rfl

/-! ## One step -/

/-- A channel whose queue holds `q`, oldest first, in a block of one channel. -/
def chanWith (q : List Entry) : Channel := q.foldl Channel.push (Channel.afterReset (Vector.replicate 2 0))

/-- A block of one channel in phase `p`, its queue `q`, its line `v`; a SLEEP lasts 2 000 000 ticks. -/
def blockIn (p : Phase) (q : List Entry) (v : List Level) : State :=
  { State.afterReset { Config.default with sleepExtra := some 0 } Unspecified.zero fun _ => Vector.replicate 2 0 with
    seq := p, chans := [chanWith q], samples := v }

/-- The state after a step, looked at by `f`. -/
def after {α : Type} (o : Outcome) (f : State → α) : Option α :=
  match o with
  | .next t => some (f t)
  | .fault _ => none
  | .refused _ => none

/-- V-W1. -/
theorem test_idle : after (exec .idle (blockIn .idle [] [])) (fun t => (t.seq, t.tmr, t.chans.map Channel.driven)) =
    some (.wake, 0, [some Level.low]) := by decide

/-- V-W2, the last of its ticks (R157). -/
theorem test_wake_high : after (exec .wake { blockIn .wake [] [] with
      tmr := 19999, chans := [{ chanWith [] with oe := true, out := Level.low }] })
    (fun t => (t.seq, t.tmr, t.chans.map Channel.driven)) = some (.wake, 20000, [some Level.high]) := by decide

/-- V-W3. -/
theorem test_wake_release : after (exec .wake { blockIn .wake [] [] with
      tmr := 20000, chans := [{ chanWith [] with oe := true, out := Level.high }], polls := 9, acnt := 9, ah := true })
    (fun t => (t.seq, t.ah, t.acnt, t.chans.map Channel.driven)) = some (.ack, false, 0, [none]) := by decide

/-- R164: the success test comes before the budget test (V-A7). -/
theorem test_ack_last_poll : after (exec .ack { blockIn .ack [] [Level.low] with polls := 254, acnt := 65 })
    (fun t => (t.seq, t.ah, t.polls, t.acnt)) = some (.ack, true, 0, 0) := by decide

/-- V-A5: 60 high samples are not enough. -/
theorem test_ack_timeout : after (exec .ack { blockIn .ack [] [Level.low] with ah := true, polls := 254, acnt := 60 })
    (fun t => (t.seq, t.err, t.diag, t.acnt)) =
      some (.sleep, .acknowledgeTimeout, some (.acknowledgeTimeout 0 true), 60) := by decide

/-- V-C4, tick 85: a high run of 31 is a 1. -/
theorem test_capture_bit : after (exec .capture { blockIn .capture [] [Level.low] with cph := .high, cnt := 31 })
    (fun t => (t.raw[0], t.idx, t.cph, t.cnt)) = some (true, 1, .low, 1) := by decide

/-- V-C8, tick 309: the 256th high sample fails the capture. -/
theorem test_capture_ceiling : after (exec .capture { blockIn .capture [] [Level.high] with cph := .high, cnt := 255 })
    (fun t => (t.seq, t.cph, t.err, t.diag)) =
      some (.sleep, .fail, .incompleteCapture, some (.incompleteCapture 0 0)) := by decide

/-- V-D2. -/
theorem test_decode_negative :
    after (exec .decode { blockIn .decode [] [] with capOk := true, raw := bitsOf 0x0190812C3E })
      (fun t => (t.seq, t.sign, t.thc, t.h10, t.tmag)) = some (.publish, true, 1, 400, 300) := by decide

/-- V-D11. -/
theorem test_decode_mismatch :
    after (exec .decode { blockIn .decode [] [] with capOk := true, raw := bitsOf 0x0190812CBE })
      (fun t => (t.seq, t.err, t.diag)) = some (.sleep, .checksumMismatch,
        some (.checksumMismatch 0 0x0190812CBE 0x0190812CBE 1 true)) := by decide

/-- V-Q3, with b = 0x0190812C. -/
theorem test_publish :
    after (exec .publish { blockIn .publish [0x019000C8] [] with csumOk := true, h10 := 0x190, sign := true, tmag := 0x12C })
      (fun t => (t.queueOf 0, t.acc)) = some ([0x019000C8, 0x0190812C], true) := by decide

/-- V-Q4, the third PUBLISH: a full queue drops the newest. -/
theorem test_publish_full :
    after (exec .publish { blockIn .publish [0x019000C8, 0x0190812C] [] with csumOk := true, h10 := 0x2FF, sign := true, tmag := 0xFF })
      (fun t => (t.queueOf 0, t.acc, t.seq, t.err)) = some ([0x019000C8, 0x0190812C], false, .sleep, .none) := by decide

/-- V-S3, the last tick. -/
theorem test_sleep : after (exec .sleep { blockIn .sleep [] [] with tmr := 1999999 }) (fun t => (t.seq, t.ch)) =
    some (.idle, 0) := by decide

/-- V-S1, the last tick. -/
theorem test_sleep_wraps :
    after (exec .sleep { State.afterReset { nch := 2, highCeil := none, sleepExtra := some 0, interSensor := 0 }
      Unspecified.zero (fun _ => Vector.replicate 2 0) with seq := .sleep, ch := 1, tmr := 1999999 })
      (fun t => (t.seq, t.ch)) = some (.idle, 0) := by decide

/-- V-Q5, the TRY_READ. -/
theorem test_tryRead : after (exec (.tryRead 0) (blockIn .sleep [0x019000C8, 0x0190812C] []))
    (fun t => (t.rdPort, t.queueOf 0)) = some (some (some 0x019000C8), [0x0190812C]) := by decide

/-- V-Q1. -/
theorem test_tryRead_empty : after (exec (.tryRead 0) (blockIn .sleep [] []))
    (fun t => (t.rdPort, t.queueOf 0)) = some (some none, []) := by decide

/-- V-Q7: PUBLISH and TRY_READ in one tick on a full queue. -/
theorem test_together : after (step { blockIn .publish [0x019000C8, 0x0190812C] [] with csumOk := true, turns := [.together 0] })
    (fun t => (t.rdPort, t.queueOf 0, t.acc)) = some (some (some 0x019000C8), [0x0190812C], false) := by decide

/-- R172 with `HIGH_CEIL = none`: a pass whose CAPTURE is in its last bit goes on with the next CYCLE and ends in IDLE. -/
theorem test_cycle_goes_on : after (exec .cycle { blockIn .capture [] [Level.low] with
      cfg := { Config.default with highCeil := none, sleepExtra := some 0 }, cycling := true, ackOk := true
      cph := .high, cnt := 1, idx := 39 })
    (fun t => (t.seq, t.cycling, t.cycleResult, t.queueOf 0)) = some (.idle, false, .published true, [0]) := by
  decide +kernel

/-- R210, R170: the SLEEP after a reset in a SLEEP has a draw of its own. -/
theorem test_reset_sleeps : after (step { blockIn .sleep [] [] with turns := [.reset], sleeps := 3 })
    (fun t => (t.seq, t.sleeps)) = some (.idle, 4) := by decide

/-! ## Each obligation's hypotheses are met -/

/-- No slot of a queue written yet. -/
def emptySlots (_ : Nat) : Vector Entry 2 := Vector.replicate 2 0

/-- A block of two channels after reset, the queue of channel 0 `q`, its line `v`, the next turns `l`. -/
def twoChannels (q : List Entry) (v : List Level) (l : List Turn) : State :=
  { State.afterReset { nch := 2, highCeil := some 256, sleepExtra := some 0, interSensor := 0 } Unspecified.zero emptySlots with
    chans := [chanWith q, chanWith []], samples := v, turns := l }

/-- The same block where PUBLISH is to come, on the frame of zeros. -/
def toPublish (q : List Entry) (l : List Turn) : State :=
  { twoChannels q [] l with seq := .publish, ackOk := true, capOk := true, csumOk := true }

theorem chanWith_ok {q : List Entry} (h : q.length ≤ 2) :
    (chanWith q).wf ∧ (chanWith q).oe = false ∧ (chanWith q).out = Level.high ∧ (chanWith q).queue = q := by
  match q, h with
  | [], _ => exact ⟨rfl, rfl, rfl, rfl⟩
  | [a], _ => exact ⟨Channel.push_wf (Channel.afterReset_wf _) rfl a, rfl, rfl, rfl⟩
  | [a, b], _ => exact ⟨Channel.push_wf (Channel.push_wf (Channel.afterReset_wf _) rfl a) rfl b, rfl, rfl, rfl⟩

theorem twoChannels_chan {q : List Entry} (hq : q.length ≤ 2) {c : Nat} {k : Channel}
    (h : [chanWith q, chanWith []][c]? = some k) : k.wf ∧ k.oe = false ∧ k.out = Level.high := by
  have m := List.mem_of_getElem? h
  simp only [List.mem_cons, List.not_mem_nil, or_false] at m
  rcases m with rfl | rfl
  · exact ⟨(chanWith_ok hq).1, (chanWith_ok hq).2.1, (chanWith_ok hq).2.2.1⟩
  · exact ⟨rfl, rfl, rfl⟩

theorem zero_counters : (0 : Count).toNat ≤ Config.ackBudget ∧ (0 : Count).toNat ≤ 66 ∧
    ∀ n, (some 256 : Option Nat) = some n → 0 < max Config.lowCeil n :=
  ⟨by decide, by decide, fun _ _ => lt_of_lt_of_le (by decide) (le_max_left _ _)⟩

theorem twoChannels_inv {q : List Entry} (hq : q.length ≤ 2) (v : List Level) (l : List Turn) :
    (twoChannels q v l).Inv where
  legal := rfl
  channels := rfl
  current := (by decide : 0 < 2)
  queues _ _ h := (twoChannels_chan hq h).1
  driven _ _ h ho := absurd ho (by simp [(twoChannels_chan hq h).2])
  wake h := nomatch h
  ack h := nomatch h
  capture h := nomatch h
  decode h := nomatch h
  publish h := nomatch h
  sleep h := nomatch h
  thc := (by decide : ((0 : BitVec 7).setWidth 8).getLsbD 7 = false)
  flags := ⟨⟨rfl, rfl⟩, nofun, nofun⟩
  released _ _ h _ := (twoChannels_chan hq h).2.2
  counters := zero_counters
  pass h := nomatch h

/-- What DECODE makes of the frame of zeros (V-D3). -/
theorem zero_decoded : Vector.replicate 5 0 = bytesOf (Vector.replicate 40 false) ∧ false = signOf (Vector.replicate 40 false) ∧
    (0 : BitVec 7).setWidth 8 = correctedHigh false (Vector.replicate 5 (0 : Byte))[2] ∧
    0 = humidityTenths (Vector.replicate 5 0) ∧
    0 = temperatureTenths ((0 : BitVec 7).setWidth 8) (Vector.replicate 5 0) ∧
    checkSumHolds (Vector.replicate 5 0) = true := by decide +kernel

theorem toPublish_inv {q : List Entry} (hq : q.length ≤ 2) (l : List Turn) : (toPublish q l).Inv where
  legal := rfl
  channels := rfl
  current := (by decide : 0 < 2)
  queues _ _ h := (twoChannels_chan hq h).1
  driven _ _ h ho := absurd ho (by simp [(twoChannels_chan hq h).2])
  wake h := nomatch h
  ack h := nomatch h
  capture h := nomatch h
  decode h := nomatch h
  publish _ := zero_decoded
  sleep h := nomatch h
  thc := (by decide : ((0 : BitVec 7).setWidth 8).getLsbD 7 = false)
  flags := ⟨rfl, rfl, rfl, rfl, rfl⟩
  released _ _ h _ := (twoChannels_chan hq h).2.2
  counters := zero_counters
  pass h := nomatch h

/-- A state at the entry of CAPTURE, its line `v`. -/
def toCapture (v : List Level) : State := { blockIn .capture [] v with cph := .pre }

theorem toCapture_ready (v : List Level) :
    (toCapture v).seq = .capture ∧ (toCapture v).cph = .pre ∧ (toCapture v).cnt = 0 ∧ (toCapture v).idx = 0 ∧
      (toCapture v).inputReady := ⟨rfl, rfl, rfl, rfl, _, rfl, rfl⟩

theorem witness_ResetLeavesTheSpecifiedValues :
    ∃ (p : Params) (u : Unspecified) (mem : Nat → Vector Entry 2) (s : State) (k : Channel),
      s = State.afterReset p u mem ∧ s.chans[0]? = some k :=
  ⟨Config.default, Unspecified.zero, emptySlots, _, _, rfl, rfl⟩

theorem witness_ResetAbandonsTheCycle : ∃ (s : State) (rest : List Turn), s.turns = .reset :: rest ∧ s.seq = .publish :=
  ⟨toPublish [1, 2] [.reset, .sequencer], [.sequencer], rfl, rfl⟩

theorem witness_FirstTickWakesChannelZero : 1 ≤ Config.default.nch := by decide

theorem witness_StepRunsTheFetchedOperation :
    (toPublish [] [.sequencer]).turns = [.sequencer] ∧ (toPublish [] [.consumer 1]).turns = [.consumer 1] ∧
    ((toPublish [] [.issue 0x17]).turns = [.issue 0x17] ∧ decodeWord 0x17 = .ok (.tryRead 1)) ∧
    ((toPublish [] [.issue 15]).turns = [.issue 15] ∧ decodeWord 15 = .error (.reserved 15)) := by decide

theorem witness_PlacedWordRunsNext : decodeTableWord 8 0x17 = some (.tryRead 1) ∧ decodeTableWord 8 8 = some .cycle := by
  decide

theorem witness_UnscriptedStepIsSomeAgents : (toPublish [] []).turns = [] ∧ 0 < (toPublish [] []).cfg.nch := by decide

theorem witness_DecodeAndEncodeAgree : decodeWord 0x27 = .ok (.tryRead 2) := by decide

theorem witness_ReservedCodesAreRefused :
    9 ≤ 9 % 16 ∧ 9 ≤ 0x1F % 16 ∧ (twoChannels [] [] [.issue 0x1F]).turns = [.issue 0x1F] := by decide

theorem witness_IdleEntersWake :
    (twoChannels [] [] []).seq = .idle ∧ (twoChannels [] [] []).chans[(twoChannels [] [] []).ch]? = some (chanWith []) :=
  ⟨rfl, rfl⟩

/-- A state in WAKE, `TMR` at `n`. -/
def waking (n : Nat) : State :=
  { blockIn .wake [] [] with tmr := n, chans := [{ chanWith [] with oe := true, out := Level.low }] }

theorem witness_WakeTickRows : ∀ n, (waking n).seq = .wake ∧ ∃ k, (waking n).chans[(waking n).ch]? = some k ∧
    (19998 + 1 < 20000 ∧ (waking 19998).tmr = 19998) ∧ (waking 19999).tmr + 1 = 20000 ∧ (waking 20000).tmr = 20000 :=
  fun _ => ⟨rfl, _, rfl, ⟨by decide, rfl⟩, rfl, rfl⟩

theorem witness_WakeSendsItsSymbol : ∃ k : Channel, (waking 0).seq = .wake ∧ (waking 0).tmr = 0 ∧
    (waking 0).chans[(waking 0).ch]? = some k ∧ k.driven = some Level.low := ⟨_, rfl, rfl, rfl, rfl⟩

/-- A state in ACK: half, counters, the next sample. -/
def polling (ah : Bool) (polls acnt : Nat) (v : List Level) : State :=
  { blockIn .ack [] v with ah := ah, polls := polls, acnt := acnt }

theorem witness_AckTickRows : ∀ ah p n v, (polling ah p n v).seq = .ack ∧ (polling ah p n v).inputReady ∧
    (polling false 254 65 [Level.low]).level = Level.low ∧ 65 < 65 + 1 ∧
    (polling true 254 60 [Level.high]).level = Level.high ∧ 60 < 60 + 1 ∧
    (polling false 254 65 [Level.high]).polls + 1 = 255 ∧ (polling true 253 60 [Level.low]).polls + 1 ≠ 255 :=
  fun _ _ _ _ => ⟨rfl, ⟨_, rfl, rfl⟩, by decide, by decide, by decide, by decide, by decide, by decide⟩

/-- A line of `m` samples of the level `!v` and then `n` of `v`, for the half that counts `v`. -/
theorem polling_count (v : Level) (m n : Nat) :
    levelCount (polling v 0 0 (List.replicate m (!v) ++ List.replicate n v)).lineAhead v (m + n) = n := by
  obtain ⟨h1, h2⟩ := lineAhead_two_runs (s := polling v 0 0 (List.replicate m (!v) ++ List.replicate n v)) rfl
  rw [levelCount_add, levelCount_none fun j hj => by rw [h1 j hj]; cases v <;> decide,
    levelCount_all fun j hj => h2 j hj, Nat.zero_add]

theorem polling_prefix (v : Level) (n : Nat) :
    levelCount (polling v 0 0 (List.replicate 0 (!v) ++ List.replicate (n + 1) v)).lineAhead v n = n :=
  levelCount_all fun j hj => by
    have h := (lineAhead_two_runs (s := polling v 0 0 (List.replicate 0 (!v) ++ List.replicate (n + 1) v)) rfl).2 j (by omega)
    rwa [Nat.zero_add] at h

/-- 66 low samples; V-A3, 65 low samples among 255 (the state of the first half is `polling false 0 0 v`). -/
theorem witness_AckFirstHalf : ∃ v w : List Level,
    (levelCount (polling false 0 0 v).lineAhead Level.low 65 = 65 ∧ levelCount (polling false 0 0 v).lineAhead Level.low 66 = 66) ∧
    levelCount (polling false 0 0 w).lineAhead Level.low 255 ≤ 65 :=
  ⟨_, _, ⟨polling_prefix false 65, (Nat.zero_add 66) ▸ polling_count false 0 66⟩, (polling_count false 190 65).le⟩

/-- V-A4 and V-A5, the second halves. -/
theorem witness_AckSecondHalf : ∃ v w : List Level,
    (levelCount (polling true 0 0 v).lineAhead Level.high 60 = 60 ∧ levelCount (polling true 0 0 v).lineAhead Level.high 61 = 61) ∧
    levelCount (polling true 0 0 w).lineAhead Level.high 255 ≤ 60 :=
  ⟨_, _, ⟨polling_prefix true 60, (Nat.zero_add 61) ▸ polling_count true 0 61⟩, (polling_count true 195 60).le⟩

theorem witness_AckLastsWithinItsBudget : ∀ v, (polling false 0 0 v).seq = .ack ∧ (polling false 0 0 v).ah = false ∧
    (polling false 0 0 v).polls = 0 ∧ (polling false 0 0 v).acnt = 0 ∧ (polling false 0 0 v).inputReady :=
  fun _ => ⟨rfl, rfl, rfl, rfl, _, rfl, rfl⟩

/-- A state inside CAPTURE: phase, counter, bit index, the next sample. -/
def capturingAt (cph : CapturePhase) (cnt : Nat) (idx : Fin 40) (v : Level) : State :=
  { blockIn .capture [] [v] with cph := cph, cnt := cnt, idx := idx }

theorem witness_CaptureTickRows : ∀ p n i v, (capturingAt p n i v).seq = .capture ∧ (capturingAt p n i v).inputReady ∧
    (capturingAt p n i v).level = v ∧ (capturingAt p n i v).cph = p ∧ (capturingAt p n i v).cnt = n ∧
    (capturingAt p n i v).idx = i ∧ (capturingAt p n i v).cfg.highCeil = some (255 + 1) ∧ (2 + 1 < 4 ∧ 3 + 1 = 4) ∧
    (254 + 1 < 256 ∧ 255 + 1 = 256) ∧ (38 < 39 ∧ (39 : Fin 40).val = 39) :=
  fun _ _ _ _ => ⟨rfl, ⟨_, rfl, rfl⟩, rfl, rfl, rfl, rfl, rfl, by decide, by decide, by decide⟩

/-- Forty zero bits with the shortest pulses, on a line that has room before and after them. -/
def shortZeros : List Level :=
  List.replicate 4 Level.low ++ (List.replicate 40 [Level.low, Level.high]).flatten ++ [Level.low]

theorem witness_CaptureAgreesWithRunLengths :
    captureRuns (toCapture shortZeros).lineAhead 256 = .captured (List.replicate 40 false) 84 ∧
    captureRuns (toCapture (List.replicate 5 Level.high)).lineAhead 1 = .incomplete [] 4 := by decide

/-- The run widths of the rules at their boundaries. -/
def boundaryPulses : List (Nat × Nat) := (0, 30) :: (256, 255) :: (1, 31) :: List.replicate 37 (1, 1)

theorem witness_EachHighRunIsOneBit : ∃ s : State, s.seq = .capture ∧ s.cph = .pre ∧ s.cnt = 0 ∧ s.idx = 0 ∧ s.inputReady ∧
    boundaryPulses.length = 40 ∧
    (∀ q ∈ boundaryPulses, q.1 ≤ 256 ∧ 1 ≤ q.2 ∧ ∀ n, s.cfg.highCeil = some n → q.2 < n) ∧
    (∀ q ∈ boundaryPulses.tail, 1 ≤ q.1) ∧
    s.samples = [true, false, true, true] ++ samplesOf (boundaryPulses.flatMap fun q => [runLow q.1, runHigh q.2]) ++
      Level.low :: [true] := by
  refine ⟨toCapture _, rfl, rfl, rfl, rfl, ⟨_, rfl, rfl⟩, rfl, ?_, by decide, rfl⟩
  have h : ∀ q ∈ boundaryPulses, q.1 ≤ 256 ∧ 1 ≤ q.2 ∧ q.2 < 256 := by decide
  exact fun q hq => ⟨(h q hq).1, (h q hq).2.1, fun n hn => Option.some.inj hn ▸ (h q hq).2.2⟩

theorem witness_NominalFrameIsCaptured : ∃ s : State, s.seq = .capture ∧ s.cph = .pre ∧ s.cnt = 0 ∧ s.idx = 0 ∧ s.inputReady ∧
    (∀ n, s.cfg.highCeil = some n → 70 < n) ∧
    s.samples = List.replicate 4 true ++ samplesOf (framePulses 0x0190812C3E) ++ Level.low :: [true] :=
  ⟨toCapture _, rfl, rfl, rfl, rfl, ⟨_, rfl, rfl⟩, fun _ hn => Option.some.inj hn ▸ by decide, rfl⟩

/-- V-H1: five high samples are left. -/
theorem witness_AcknowledgeTailShiftsTheFrame : ∃ s : State, s.seq = .capture ∧ s.cph = .pre ∧ s.cnt = 0 ∧ s.idx = 0 ∧
    s.inputReady ∧ (∀ n, s.cfg.highCeil = some n → 70 < n ∧ 5 < n) ∧ 1 ≤ 5 ∧
    s.samples = List.replicate 4 true ++ samplesOf (runHigh 5 :: framePulses 0x019000C859) ++ [] :=
  ⟨toCapture _, rfl, rfl, rfl, rfl, ⟨_, rfl, rfl⟩, fun _ hn => Option.some.inj hn ▸ by decide, by decide, rfl⟩

theorem lineAhead_replicate (s : State) (n : Nat) (v : Level) (h : s.samples = List.replicate n v) :
    ∀ j < n, s.lineAhead j = v := by
  intro j hj
  simp [State.lineAhead, h, hj]

theorem witness_StuckLowLineGivesZeros : ∃ s : State, s.seq = .capture ∧ s.cph = .pre ∧ s.cnt = 0 ∧ s.idx = 0 ∧ s.inputReady ∧
    ∀ j < 10245, s.lineAhead j = Level.low :=
  ⟨toCapture (List.replicate 10245 Level.low), rfl, rfl, rfl, rfl, ⟨_, rfl, rfl⟩, lineAhead_replicate _ _ _ rfl⟩

theorem witness_StuckHighLineFailsOrHangs : ∀ h : Option Nat, ∃ s : State, s.seq = .capture ∧ s.cph = .pre ∧ s.cnt = 0 ∧
    s.idx = 0 ∧ s.inputReady ∧ s.cfg.highCeil = h ∧ ∀ j < 260, s.lineAhead j = Level.high := fun h =>
  ⟨{ toCapture (List.replicate 260 Level.high) with cfg := { Config.default with highCeil := h } }, rfl, rfl, rfl, rfl,
    ⟨_, rfl, rfl⟩, rfl, lineAhead_replicate _ _ _ rfl⟩

/-- A state in DECODE with the frame `f`. -/
def decoding (f : Frame) : State := { blockIn .decode [] [] with capOk := true, raw := bitsOf f }

theorem witness_DecodeWritesTheFrame : ∀ f, (decoding f).seq = .decode ∧ (decoding f).capOk = true := fun _ => ⟨rfl, rfl⟩

theorem witness_EntryIsTheFirstFourBytes : (decoding 0x0190812C3E).seq = .decode ∧ (decoding 0x0190812C3E).capOk = true :=
  ⟨rfl, rfl⟩

/-- The checksum holds, and fails. -/
theorem witness_DecodeTransfersControl : ∀ f, (decoding f).seq = .decode ∧ (decoding f).capOk = true ∧
    checkSumHolds (bytesOf (decoding 0x019000C859).raw) = true ∧
    checkSumHolds (bytesOf (decoding 0x019000C85A).raw) = false :=
  fun _ => ⟨rfl, rfl, by decide, by decide⟩

theorem witness_DecodeReturnsTheBytesSent :
    (decoding 0x0190812C3E).raw = bitsOf ((0x01 : Byte) ++ (0x90 : Byte) ++ (0x81 : Byte) ++ (0x2C : Byte) ++ (0x3E : Byte)) ∧
    (decoding 0x0000800080).raw = bitsOf ((0x00 : Byte) ++ (0x00 : Byte) ++ (0x80 : Byte) ++ (0x00 : Byte) ++ (0x80 : Byte)) ∧
    128 ≤ (0x80 : Byte).toNat ∧ (0x7F : Byte).toNat < 128 := ⟨rfl, rfl, by decide, by decide⟩

theorem witness_ReadingOfAnEntry : (0x0190812C : Entry) = entryOf 400 true 300 := by decide

theorem witness_ZeroFrameIsPublished :
    (decoding 0).seq = .decode ∧ (decoding 0).capOk = true ∧ (decoding 0).raw = Vector.replicate 40 false ∧
    (decoding 0).chans[(decoding 0).ch]? = some (chanWith []) ∧ (chanWith []).wf ∧ (chanWith []).queue.length < 2 :=
  ⟨rfl, rfl, by decide, rfl, rfl, by decide⟩

theorem witness_PublishAppendsOrDrops : ∀ q : List Entry, q.length ≤ 2 →
    (toPublish q []).seq = .publish ∧ (toPublish q []).csumOk = true ∧
    (toPublish q []).chans[(toPublish q []).ch]? = some (chanWith q) ∧ (chanWith q).wf ∧ (chanWith q).queue = q :=
  fun _ h => ⟨rfl, rfl, rfl, (chanWith_ok h).1, (chanWith_ok h).2.2.2⟩

theorem witness_TryReadTakesTheHead :
    (twoChannels [7, 8] [] []).chans[1]? = some (chanWith []) ∧ (chanWith []).queue = [] ∧
    (twoChannels [7, 8] [] []).chans[0]? = some (chanWith [7, 8]) ∧ (chanWith [7, 8]).queue = [7, 8] ∧
    (twoChannels [7, 8] [] []).chans.length ≤ 2 := ⟨rfl, rfl, rfl, rfl, by decide⟩

theorem witness_QueueRegisterRows : (∀ q : List Entry,
      (toPublish q []).seq = .publish ∧ (toPublish q []).csumOk = true ∧
      (toPublish q []).chans[(toPublish q []).ch]? = some (chanWith q)) ∧
    (chanWith [7]).count.val < 2 ∧ (chanWith [7, 8]).count.val = 2 ∧ 0 < (chanWith [7]).count.val ∧
    (chanWith []).count.val = 0 := ⟨fun _ => ⟨rfl, rfl, rfl⟩, by decide, by decide, by decide, by decide⟩

/-- For each of the three lengths of the queue. -/
theorem witness_SameTickIsAnInterleaving : ∀ q : List Entry, q.length ≤ 2 →
    (toPublish q [.together 0]).Inv ∧ (toPublish q [.together 0]).turns = .together 0 :: [] ∧
    (toPublish q [.together 0]).chans[0]? = some (chanWith q) ∧ (toPublish q [.together 0]).seq = .publish :=
  fun _ h => ⟨toPublish_inv h _, rfl, rfl, rfl⟩

theorem witness_QueueTrafficIsFifo : ∃ (s t : State) (ins outs : List Entry), s.Inv ∧ s.scripted 2 ∧
    queueLog 0 2 s = some (ins, outs, t) ∧ ins = [0] ∧ outs = [7] := by
  refine ⟨toPublish [7] [.sequencer, .consumer 0], _, _, _, toPublish_inv (by decide) _, ⟨by decide, ?_⟩, rfl, rfl, rfl⟩
  intro t ht
  have h : t = .sequencer ∨ t = .consumer 0 := by simpa [toPublish, twoChannels] using ht
  rcases h with rfl | rfl
  · exact ⟨trivial, nofun⟩
  · exact ⟨(by decide : 0 < 2), nofun⟩

/-- A state in SLEEP that lasts 2 000 000 ticks. -/
def sleeping (n : Nat) : State := { blockIn .sleep [] [] with tmr := n }

theorem witness_SleepTickRows : ∀ n, (sleeping n).seq = .sleep ∧
    (sleeping 1999998).tmr + 1 < sleepDuration (sleeping 1999998) ∧
    (sleeping 1999999).tmr + 1 = sleepDuration (sleeping 1999999) := fun _ => ⟨rfl, by decide, by decide⟩

theorem witness_SleepLastsItsDuration : (sleeping 0).seq = .sleep ∧ (sleeping 0).tmr = 0 ∧
    (sleeping 0).cfg.sleepExtra = some 0 := ⟨rfl, rfl, rfl⟩

theorem witness_EveryCycleEnds : (twoChannels [7, 8] [true] []).Inv ∧ (twoChannels [7, 8] [true] []).seq = .idle ∧
    (twoChannels [7, 8] [true] []).cfg.highCeil = some 256 := ⟨twoChannels_inv (by decide) _ _, rfl, rfl⟩

theorem witness_CycleIsOnePass : ∀ v, (twoChannels [] v []).Inv ∧ (twoChannels [] v []).seq = .idle ∧
    (twoChannels [] v []).cfg.highCeil = some 256 := fun v => ⟨twoChannels_inv (by decide) v _, rfl, rfl⟩

/-- A pass of CYCLE that stands in the last tick of its SLEEP, with `HIGH_CEIL = none`, after an AcknowledgeTimeout. -/
def passAtItsEnd : State :=
  { twoChannels [] [] [] with
    cfg := { nch := 2, highCeil := none, sleepExtra := some 0, interSensor := 0 }, seq := .sleep, tmr := 1999999
    err := .acknowledgeTimeout, cycling := true }

theorem passAtItsEnd_inv : passAtItsEnd.Inv where
  legal := rfl
  channels := rfl
  current := (by decide : 0 < 2)
  queues _ _ h := (twoChannels_chan (q := []) (by decide) h).1
  driven _ _ h ho := absurd ho (by simp [(twoChannels_chan (q := []) (by decide) h).2])
  wake h := nomatch h
  ack h := nomatch h
  capture h := nomatch h
  decode h := nomatch h
  publish h := nomatch h
  sleep _ := (by decide : 1999999 < 2000000)
  thc := (by decide : ((0 : BitVec 7).setWidth 8).getLsbD 7 = false)
  flags := ⟨rfl, rfl, rfl, rfl⟩
  released _ _ h _ := (twoChannels_chan (q := []) (by decide) h).2.2
  counters := ⟨by decide, by decide, nofun⟩
  pass _ := ⟨rfl, .inr (.inr (.inr rfl))⟩

theorem witness_CycleEndsWhereThePassEnds : ∃ u : State, passAtItsEnd.Inv ∧ passAtItsEnd.cycling = true ∧
    runSeq 1 passAtItsEnd = .next u ∧ u.seq = .idle := ⟨_, passAtItsEnd_inv, rfl, rfl, rfl⟩

theorem witness_CountersFitTheirWidths : (twoChannels [] [] []).Inv ∧ (twoChannels [] [] []).cfg.highCeil = some 256 ∧
    passAtItsEnd.Inv ∧ passAtItsEnd.seq = .sleep := ⟨twoChannels_inv (by decide) _ _, rfl, passAtItsEnd_inv, rfl⟩

/-- A line on which a cycle delivers the frame of zeros. -/
def zeroLine : List Level := List.replicate 66 Level.low ++ List.replicate 61 Level.high ++ shortZeros

theorem witness_CycleLeavesTheRest : ∃ s t : State, s.Inv ∧ exec .cycle s = .next t :=
  ⟨twoChannels [7] zeroLine [], _, twoChannels_inv (by decide) _ _, rfl⟩

/-- A cycle that fails, one that publishes, and one whose entry is dropped. -/
theorem witness_FailedCycleLeavesTheQueues :
    (∃ s t : State, s.Inv ∧ exec .cycle s = .next t ∧ t.seq = .idle ∧ t.err ≠ .none) ∧
    (∃ s t : State, s.Inv ∧ exec .cycle s = .next t ∧ t.seq = .idle ∧ t.err = .none ∧ t.acc = true) ∧
    (∃ s t : State, s.Inv ∧ exec .cycle s = .next t ∧ t.seq = .idle ∧ t.err = .none ∧ t.acc = false) := by
  refine ⟨⟨twoChannels [] (List.replicate 255 Level.high) [], _, twoChannels_inv (by decide) _ _, rfl, ?_⟩,
    ⟨twoChannels [7] zeroLine [], _, twoChannels_inv (by decide) _ _, rfl, ?_⟩,
    ⟨twoChannels [7, 8] zeroLine [], _, twoChannels_inv (by decide) _ _, rfl, ?_⟩⟩ <;> decide +kernel

theorem witness_CycleDeliversTheFrame : ∃ s : State, s.Inv ∧ s.seq = .idle ∧ s.cfg.highCeil = some 256 ∧
    s.samples = samplesOf ([runHigh 30, runLow 66, runHigh 61, runLow 4] ++ framePulses 0x019000C859 ++ [runLow 1]) ++ [] :=
  ⟨twoChannels [] _ [], twoChannels_inv (by decide) _ _, rfl, rfl, rfl⟩

theorem witness_TransitionTable : ∃ t, exec (sleeping 1999999).seq.instr (sleeping 1999999) = .next t := ⟨_, rfl⟩

theorem witness_WhoWritesWhat : ∃ t, exec (waking 20000).seq.instr (waking 20000) = .next t := ⟨_, rfl⟩

theorem witness_OneTickOrNone : (∃ t, exec (toPublish [] []).seq.instr (toPublish [] []) = .next t) ∧
    ∃ t, exec (.tryRead 1) (toPublish [] []) = .next t := ⟨⟨_, rfl⟩, ⟨_, rfl⟩⟩

theorem witness_OnlyThreeFailures :
    (∃ t, exec (twoChannels [] [] []).seq.instr (twoChannels [] [] []) = .next t) ∧
    (∃ t, exec (polling false 254 0 [Level.high]).seq.instr (polling false 254 0 [Level.high]) = .next t) ∧
    (∃ t, exec (decoding 0x019000C85A).seq.instr (decoding 0x019000C85A) = .next t) ∧
    (∃ t, exec (toPublish [7] []).seq.instr (toPublish [7] []) = .next t) ∧
    ∃ t, exec (.tryRead 1) (toPublish [7] []) = .next t := ⟨⟨_, rfl⟩, ⟨_, rfl⟩, ⟨_, rfl⟩, ⟨_, rfl⟩, ⟨_, rfl⟩⟩

theorem witness_PortsShowTheRegistersAndTheEvent :
    (∃ s : State, s.chans[1]? = some (chanWith []) ∧ s.diag = some (.acknowledgeTimeout 1 true) ∧ s.rdPort = some (some 7)) ∧
    (∃ s : State, s.diag = some (.incompleteCapture 0 39) ∧ s.rdPort = some none) ∧
    ∃ s : State, s.diag = some (.checksumMismatch 0 5 6 7 true) :=
  ⟨⟨{ twoChannels [] [] [] with diag := some (.acknowledgeTimeout 1 true), rdPort := some (some 7) }, rfl, rfl, rfl⟩,
    ⟨{ twoChannels [] [] [] with diag := some (.incompleteCapture 0 39), rdPort := some none }, rfl, rfl⟩,
    ⟨{ twoChannels [] [] [] with diag := some (.checksumMismatch 0 5 6 7 true) }, rfl⟩⟩

theorem witness_OutOfSequenceIsRefused :
    (twoChannels [] [] []).seq ≠ .wake ∧ ((toPublish [] []).seq ≠ .idle ∧ (toPublish [] []).cycling = false) ∧
    (∃ (s : State) (k : Channel), s.chans[s.ch]? = some k ∧ k.oe = true ∧ s.seq = .ack) ∧
    (∃ s : State, s.seq = .decode ∧ s.capOk = false) ∧
    ∃ (s : State) (k : Channel), s.chans[s.ch]? = some k ∧ s.seq = .publish ∧ s.csumOk = false :=
  ⟨nofun, ⟨nofun, rfl⟩, ⟨{ waking 0 with seq := .ack }, _, rfl, rfl, rfl⟩, ⟨blockIn .decode [] [], rfl, rfl⟩,
    ⟨blockIn .publish [] [], _, rfl, rfl, rfl⟩⟩

theorem witness_NothingStopsTheBlock :
    (toPublish [7] [.together 1]).Inv ∧ (toPublish [7] [.together 1]).turns = .together 1 :: [] ∧
    (Turn.together 1).legal (toPublish [7] [.together 1]).cfg :=
  ⟨toPublish_inv (by decide) _, rfl, (by decide : 1 < 2)⟩

theorem witness_ResetMeetsTheInvariant : { Config.default with nch := 3, highCeil := none : Params }.legal = true := by decide

theorem witness_OnlyWrittenRegistersAreRead : ∃ s t : State, s.Inv ∧ step s = .next t ∧ t.seq = .wake :=
  ⟨twoChannels [7] [] [.sequencer], _, twoChannels_inv (by decide) _ _, rfl, rfl⟩

theorem witness_StepKeepsTheInvariant : ∃ s t : State, s.Inv ∧ step s = .next t ∧ t.seq = .sleep :=
  ⟨toPublish [7] [.together 0], _, toPublish_inv (by decide) _, rfl, rfl⟩

theorem witness_ConsumerCannotDisturbTheProducer : ∃ s s' t : State,
    s.producer = s'.producer ∧ s.queueOf 0 ≠ s'.queueOf 0 ∧ exec s.seq.instr s = .next t :=
  ⟨toPublish [7] [], toPublish [8, 9] [.sequencer], _, rfl, by decide, rfl⟩

end Sys2Proof.Tests
end

section
/-! SUPPORT. Proofs of the family `00_scope`: what a step fetches and runs, which operations take a tick, and the widths of the
counters. -/

namespace Sys2Proof.Machine

/-! ## Words -/

/-- The code in `SEQ` is the word of the operation its phase executes (R21, R78). -/
theorem decodeWord_phaseCode (p : Phase) : decodeWord p.code.toNat = .ok p.instr := by
  cases p <;> rfl

/-- A word with the code of TRY_READ names that operation on the channel in its operand field, whatever channel this is (R133). -/
theorem decodeWord_of_tryReadCode {w : Nat} (h : opField w = 7) : decodeWord w = .ok (.tryRead (operandField w)) := by
  unfold decodeWord
  rw [h]
  rfl

theorem decodeWord_encode_tryRead (c : Nat) : decodeWord (encode (.tryRead c)) = .ok (.tryRead c) := by
  obtain ⟨hop, harg⟩ := Laws.Fields.tryRead c
  rw [decodeWord_of_tryReadCode hop, harg]
  rfl

theorem runWord_of_decodes {w : Nat} {i : Instr} (h : decodeWord w = .ok i) (s : State) : runWord w s = exec i s := by
  simp only [runWord, h]

theorem runWord_of_error {w : Nat} {e : DecodeError} (h : decodeWord w = .error e) (s : State) :
    runWord w s = .refused (refusalOf e) := by
  simp only [runWord, h]

/-! ## Turns -/

theorem State.turn_of_scripted {s : State} {t : Turn} {rest : List Turn} (h : s.turns = t :: rest) : s.turn = t := by
  simp only [State.turn, h]

theorem State.begin_of_scripted {s : State} {t : Turn} {rest : List Turn} (h : s.turns = t :: rest) :
    s.begin = { s with turns := rest, turnNo := s.turnNo + 1, diag := none, rdPort := none } := by
  simp only [State.begin, h, List.tail_cons]

/-- With a scripted turn, a step runs that turn in the state where it is used up and the ports are cleared. -/
theorem step_of_scripted {s : State} {t : Turn} {rest : List Turn} (h : s.turns = t :: rest) :
    step s = runTurn t { s with turns := rest, turnNo := s.turnNo + 1, diag := none, rdPort := none } := by
  rw [step, State.turn_of_scripted h, State.begin_of_scripted h]

theorem runTurn_sequencer (s : State) : runTurn .sequencer s = exec s.seq.instr s :=
  runWord_of_decodes (decodeWord_phaseCode s.seq) s

theorem runTurn_consumer (c : Nat) (s : State) : runTurn (.consumer c) s = exec (.tryRead c) s :=
  runWord_of_decodes (decodeWord_encode_tryRead c) s

/-- Settles O4: the turn decides the word, and the decoder the operation. -/
theorem stepRunsTheFetchedOperation : Obligations.StepRunsTheFetchedOperation := by
  rintro s a rest rfl
  refine ⟨fun h => ⟨decodeWord_phaseCode s.seq, ?_⟩, fun c h => ?_, fun w i h hw => ?_, fun w e h hw => ?_⟩
  · rw [step_of_scripted h, runTurn_sequencer]
  · rw [step_of_scripted h, runTurn_consumer]
  · rw [step_of_scripted h]
    exact runWord_of_decodes hw _
  · rw [step_of_scripted h]
    exact runWord_of_error hw _

/-- The free choice of an agent is a turn the hardware can take: a channel drawn freely is taken modulo `NCH` (log 24). -/
theorem State.turn_legal_of_unscripted {s : State} (h : s.turns = []) (hn : 0 < s.cfg.nch) : s.turn.legal s.cfg := by
  have hc : Config.freeReadChannel s.turnNo % s.cfg.nch < s.cfg.nch := Nat.mod_lt _ hn
  unfold State.turn
  rw [h]
  match Config.freeAgent s.turnNo with
  | 0 => trivial
  | 1 => exact hc
  | 2 => exact hc
  | 3 => trivial

/-- Settles O6: the turn that is drawn freely can as well be scripted, since either way no turn is left after the step. -/
theorem unscriptedStepIsSomeAgents : Obligations.UnscriptedStepIsSomeAgents := by
  intro s h hn
  refine ⟨s.turn, State.turn_legal_of_unscripted h hn, ?_⟩
  rw [step_of_scripted (s := { s with turns := [s.turn] }) rfl, step, State.begin, h, List.tail_nil]

/-! ## Ticks (R13) -/

@[simp] theorem idleTick_now (s : State) : (idleTick s).now = s.now + 1 := rfl

@[simp] theorem wakeTick_now (s : State) : (wakeTick s).now = s.now + 1 := by
  unfold wakeTick
  split
  · rfl
  split <;> rfl

@[simp] theorem ackTick_now (s : State) : (ackTick s).now = s.now + 1 := by
  unfold ackTick
  dsimp only
  split
  · split <;> rfl
  split <;> rfl

@[simp] theorem countHigh_now (h : Nat) (s : State) : (countHigh h s).now = s.now := by
  unfold countHigh
  split <;> rfl

@[simp] theorem storeBit_now (s : State) : (storeBit s).now = s.now := by
  unfold storeBit
  split <;> rfl

/-- The table of R99 moves the capture registers; the tick itself has passed before, at the sample. -/
@[simp] theorem captureRow_now (v : Level) (s : State) : (captureRow v s).now = s.now := by
  unfold captureRow
  split
  case h_1 => split <;> rfl
  case h_2 =>
    split
    · exact countHigh_now 1 s
    split <;> rfl
  case h_3 =>
    split
    · exact countHigh_now _ s
    · exact storeBit_now s
  all_goals rfl

@[simp] theorem captureTick_now (s : State) : (captureTick s).now = s.now + 1 := captureRow_now _ _

@[simp] theorem decodeStep_now (s : State) : (decodeStep s).now = s.now := by
  unfold decodeStep
  dsimp only
  split <;> rfl

@[simp] theorem publishStep_now (k : Channel) (s : State) : (publishStep k s).now = s.now := by
  unfold publishStep
  split <;> rfl

@[simp] theorem sleepTick_now (s : State) : (sleepTick s).now = s.now + 1 := by
  unfold sleepTick
  split <;> rfl

/-- TRY_READ leaves the tick count as the state it is applied to has it. -/
theorem tryReadFrom_now {pre post t : State} {c : Nat} (h : tryReadFrom pre post c = .next t) : t.now = post.now := by
  obtain ⟨k, -, rfl⟩ := tryReadFrom_eq_next.mp h
  dsimp only
  split <;> rfl

/-- Settles O52: by the operation of the phase. -/
theorem oneTickOrNone : Obligations.OneTickOrNone := by
  refine ⟨fun s t h => ?_, fun s t c h => tryReadFrom_now h⟩
  rcases exec_seq_cases h with ⟨hs, -, rfl⟩ | ⟨hs, -, rfl⟩ | ⟨hs, -, rfl⟩ | ⟨hs, -, rfl⟩ | ⟨hs, -, rfl⟩ |
    ⟨hs, -, k, -, rfl⟩ | ⟨hs, rfl⟩ <;> simp [hs]

/-! ## Widths (R7, R21) -/

/-- The width of `CH` suffices for every channel number. -/
theorem Params.nch_le_two_pow_chWidth (p : Params) : p.nch ≤ 2 ^ p.chWidth :=
  calc p.nch ≤ 2 ^ Nat.clog 2 p.nch := Nat.le_pow_clog Nat.one_lt_two _
    _ ≤ 2 ^ p.chWidth := Nat.pow_le_pow_right Nat.two_pos (Nat.le_max_right _ _)

/-- With the default ceiling `CNT` stays below 256, the ceiling of both waits (R99). -/
theorem State.Inv.cnt_le_of_defaultCeil {s : State} (hi : s.Inv) (hc : s.cfg.highCeil = some 256) : s.cnt ≤ 255 := by
  obtain ⟨-, -, hcnt⟩ := hi.counters
  have h : s.cnt < max 256 256 := hcnt 256 hc
  omega

/-- Settles O49: each bound is a clause of the invariant, but for the two widths. -/
theorem countersFitTheirWidths : Obligations.CountersFitTheirWidths := by
  intro s hi
  obtain ⟨hpolls, hacnt, -⟩ := hi.counters
  refine ⟨hi.current.trans_le (Params.nch_le_two_pow_chWidth s.cfg), fun hc => ?_, hpolls, hacnt,
    fun hw => (hi.wake hw).1, hi.sleep⟩
  have hcnt := hi.cnt_le_of_defaultCeil hc
  exact ⟨hcnt.trans_lt (by decide), hcnt⟩

end Sys2Proof.Machine
end

section
/-! SUPPORT. Proofs of the family `10_state`: the state after reset, the invariant and its steps, who writes which register, and
which registers a step reads. -/

namespace Sys2Proof.Machine

/-! ## After reset (R33) -/

theorem State.afterReset_chan_iff {p : Params} {u : Unspecified} {mem : Nat → Vector Entry 2} {c : Nat} {k : Channel} :
    (State.afterReset p u mem).chans[c]? = some k ↔ c < p.nch ∧ k = Channel.afterReset (mem c) := by
  by_cases hc : c < p.nch <;> simp [State.afterReset, hc, eq_comm]

theorem State.afterReset_chans_length (p : Params) (u : Unspecified) (mem : Nat → Vector Entry 2) :
    (State.afterReset p u mem).chans.length = p.nch := by
  simp [State.afterReset]

/-- Settles O1: field by field, and channel by channel. -/
theorem resetLeavesTheSpecifiedValues : Obligations.ResetLeavesTheSpecifiedValues := by
  refine ⟨?_, Config.default, Unspecified.zero, fun _ => Vector.replicate 2 0, by decide, rfl⟩
  rintro p u mem s rfl
  have hchans : ∀ (c : Nat) (k : Channel), (State.afterReset p u mem).chans[c]? = some k →
      k.oe = false ∧ k.out = Level.high ∧ k.queue = [] ∧ k.count = 0 ∧ k.rd = 0 ∧ k.wr = 0 ∧ k.mem = mem c := by
    intro c k hk
    obtain ⟨-, rfl⟩ := State.afterReset_chan_iff.mp hk
    exact ⟨rfl, rfl, rfl, rfl, rfl, rfl, rfl⟩
  exact ⟨rfl, rfl, rfl, State.afterReset_chans_length p u mem, hchans, rfl, rfl, rfl, rfl, rfl, rfl, rfl, rfl, rfl, rfl, rfl,
    rfl, rfl, rfl, rfl, rfl, rfl⟩

/-! ## The invariant, phase by phase -/

theorem Params.legal_iff {p : Params} : p.legal = true ↔ 1 ≤ p.nch ∧ p.highCeil ≠ some 0 := by
  simp only [Params.legal, Bool.and_eq_true, decide_eq_true_eq]

/-- A channel between two wake symbols: its queue registers agree (R29), and its line is an input with driver level 1 (R33, R64). -/
structure Channel.AtRest (k : Channel) : Prop where
  wf : k.wf
  input : k.oe = false
  high : k.out = Level.high

/-- What the invariant asks of the registers that the phase at work uses, WAKE's line apart. -/
def State.phaseInRange (s : State) : Prop :=
  match s.seq with
  | .ack => s.polls.toNat < Config.ackBudget ∧ s.acnt.toNat ≤ threshold s.ah ∧ s.acnt.toNat ≤ s.polls.toNat
  | .capture => s.captureInRange
  | .decode => s.cph = .done
  | .publish => s.decoded
  | .sleep => s.tmr < sleepDuration s
  | .idle | .wake => True

/-- The counters in the range they keep in every phase (R23, R24). -/
def State.countersInRange (s : State) : Prop :=
  s.polls.toNat ≤ Config.ackBudget ∧ s.acnt.toNat ≤ 66 ∧ ∀ n, s.cfg.highCeil = some n → s.cnt < max Config.lowCeil n

/-- A pass that has come to CAPTURE or past it. -/
def State.underWay (s : State) : Prop := s.seq = .capture ∨ s.seq = .decode ∨ s.seq = .publish ∨ s.seq = .sleep

/-- The mark of a CYCLE under way is set only where one can be (log 14). -/
def State.passInRange (s : State) : Prop :=
  s.cycling = true → s.cfg.highCeil = none ∧ s.underWay

/-- Outside WAKE every channel is at rest. -/
theorem State.Inv.atRest {s : State} (hi : s.Inv) (hs : s.seq ≠ .wake) {c : Nat} {k : Channel}
    (hk : s.chans[c]? = some k) : k.AtRest := by
  have hoe : k.oe = false := Bool.eq_false_iff.mpr fun h => hs (hi.driven c k hk h).1
  exact ⟨hi.queues c k hk, hoe, hi.released c k hk hoe⟩

/-- The channel of `CH` exists. -/
theorem State.Inv.exists_current {s : State} (hi : s.Inv) : ∃ k, s.chans[s.ch]? = some k :=
  ⟨_, List.getElem?_eq_getElem (hi.current.trans_eq hi.channels.symm)⟩

theorem State.Inv.highCeil_ne_zero {s : State} (hi : s.Inv) : s.cfg.highCeil ≠ some 0 :=
  (Params.legal_iff.mp hi.legal).2

theorem State.Inv.nch_pos {s : State} (hi : s.Inv) : 0 < s.cfg.nch := (Nat.zero_le _).trans_lt hi.current

/-- The invariant outside WAKE, from its parts. -/
theorem State.inv_of_atRest {s : State} (hs : s.seq ≠ .wake) (hlegal : s.cfg.legal = true)
    (hlen : s.chans.length = s.cfg.nch) (hch : s.ch < s.cfg.nch)
    (hrest : ∀ (c : Nat) (k : Channel), s.chans[c]? = some k → k.AtRest) (hthc : s.thc.getLsbD 7 = false)
    (hphase : s.phaseInRange) (hflags : s.flagsMatch) (hcounters : s.countersInRange) (hpass : s.passInRange) : s.Inv where
  legal := hlegal
  channels := hlen
  current := hch
  queues c k hk := (hrest c k hk).wf
  driven c k hk ho := absurd ((hrest c k hk).input.symm.trans ho) Bool.false_ne_true
  wake h := absurd h hs
  ack h := by simpa only [State.phaseInRange, h] using hphase
  capture h := by simpa only [State.phaseInRange, h] using hphase
  decode h := by simpa only [State.phaseInRange, h] using hphase
  publish h := by simpa only [State.phaseInRange, h] using hphase
  sleep h := by simpa only [State.phaseInRange, h] using hphase
  thc := hthc
  flags := hflags
  released c k hk _ := (hrest c k hk).high
  counters := hcounters
  pass := hpass

/-- A step from one phase outside WAKE to another that leaves the channels, `CH` and the parameters alone. -/
theorem State.Inv.of_same_lines {s t : State} (hi : s.Inv) (hs : s.seq ≠ .wake) (ht : t.seq ≠ .wake)
    (hchans : t.chans = s.chans) (hch : t.ch = s.ch) (hcfg : t.cfg = s.cfg) (hthc : t.thc.getLsbD 7 = false)
    (hphase : t.phaseInRange) (hflags : t.flagsMatch) (hcounters : t.countersInRange) (hpass : t.passInRange) : t.Inv :=
  State.inv_of_atRest ht (hcfg ▸ hi.legal) (by rw [hchans, hcfg, hi.channels]) (by rw [hch, hcfg]; exact hi.current)
    (fun _ _ hk => hi.atRest hs (hchans ▸ hk)) hthc hphase hflags hcounters hpass

/-- The invariant looks neither at the ports nor at the model's inputs and counters of steps and ticks. -/
theorem State.Inv.of_inputs {s : State} (hi : s.Inv) (d : Option DiagEvent) (r : Option (Option Entry)) (v : List Level)
    (l : List Turn) (m n : Nat) :
    ({ s with diag := d, rdPort := r, samples := v, turns := l, now := m, turnNo := n } : State).Inv := { hi with }

theorem State.Inv.begin {s : State} (hi : s.Inv) : s.begin.Inv := hi.of_inputs ..

theorem State.Inv.tick {s : State} (hi : s.Inv) : s.tick.Inv := hi.of_inputs ..

theorem State.Inv.sampled {s : State} (hi : s.Inv) : s.sampled.Inv := hi.of_inputs ..

/-! ## Reset meets the invariant -/

theorem State.afterReset_inv {p : Params} (hp : p.legal = true) (u : Unspecified) (mem : Nat → Vector Entry 2) :
    (State.afterReset p u mem).Inv := by
  obtain ⟨hnch, -⟩ := Params.legal_iff.mp hp
  refine State.inv_of_atRest nofun hp (State.afterReset_chans_length p u mem) hnch ?_ ?_ trivial
    ⟨⟨rfl, rfl⟩, nofun, nofun⟩ ⟨Nat.zero_le _, Nat.zero_le _, fun n _ => lt_of_lt_of_le (Nat.succ_pos 255) (le_max_left _ n)⟩ nofun
  · intro c k hk
    obtain ⟨-, rfl⟩ := State.afterReset_chan_iff.mp hk
    exact ⟨Channel.afterReset_wf _, rfl, rfl⟩
  · simp [State.afterReset]

/-- Settles O47: `State.reset` is a state after reset with legal parameters. -/
theorem resetMeetsTheInvariant : Obligations.ResetMeetsTheInvariant :=
  ⟨State.afterReset_inv (by decide) _ _, fun _ u mem hp => State.afterReset_inv hp u mem⟩

/-- `rst` in mid-run comes to a state after reset (R210). -/
theorem resetStep_inv {s : State} (hi : s.Inv) : (resetStep s).Inv :=
  { State.afterReset_inv hi.legal (freeRegisters s.turnNo)
      (fun c => Vector.ofFn fun j => Config.freeMem s.turnNo c j) with sleep := nofun }

/-! ## IDLE and WAKE keep the invariant -/

theorem State.Inv.not_cycling {s : State} (hi : s.Inv) (hs : s.seq = .idle ∨ s.seq = .wake ∨ s.seq = .ack) :
    s.cycling = false := by
  refine Bool.eq_false_iff.mpr fun h => ?_
  obtain ⟨-, hp⟩ := hi.pass h
  rcases hs with hs | hs | hs <;> simp [hs] at hp

theorem enterWake_inv {s : State} (hi : s.Inv) (hs : s.seq = .idle) : (enterWake s).Inv where
  legal := hi.legal
  channels := (List.length_modify ..).trans hi.channels
  current := hi.current
  queues c k hk := by
    obtain ⟨k₀, hk₀, rfl⟩ := getElem?_modify_eq_some.mp hk
    have hw : k₀.wf := hi.queues c k₀ hk₀
    split <;> exact hw
  driven c k hk ho := by
    obtain ⟨k₀, hk₀, rfl⟩ := getElem?_modify_eq_some.mp hk
    split at ho
    next hc => exact ⟨rfl, hc.symm⟩
    next => exact nomatch hs.symm.trans (hi.driven c k₀ hk₀ ho).1
  wake _ := by
    refine ⟨Nat.zero_le _, fun k hk => ?_⟩
    obtain ⟨k₀, -, rfl⟩ := getElem?_modify_eq_some.mp hk
    rw [if_pos (enterWake_ch s).symm]
    exact ⟨rfl, nofun, nofun⟩
  ack := nofun
  capture := nofun
  decode := nofun
  publish := nofun
  sleep := nofun
  thc := hi.thc
  flags := ⟨rfl, rfl, rfl, rfl, rfl⟩
  released c k hk ho := by
    obtain ⟨k₀, hk₀, rfl⟩ := getElem?_modify_eq_some.mp hk
    split at ho
    next => exact nomatch ho
    next hc => rw [if_neg hc]; exact hi.released c k₀ hk₀ ho
  counters := hi.counters
  pass h := nomatch (hi.not_cycling (.inl hs)).symm.trans h

theorem idleTick_inv {s : State} (hi : s.Inv) (hs : s.seq = .idle) : (idleTick s).Inv := (enterWake_inv hi hs).tick

/-- WAKE at its last tick: the line of `CH` is driven high (R157). -/
def wakeHigh (s : State) : State := { s.onChan s.ch fun k => k.write Level.high with tmr := Config.wakeLowTicks }

theorem wakeHigh_out {s : State} {k : Channel} (hk : (wakeHigh s).chans[s.ch]? = some k) : k.out = Level.high := by
  obtain ⟨k₀, -, rfl⟩ := getElem?_modify_eq_some.mp hk
  rw [if_pos rfl]
  rfl

theorem wakeHigh_inv {s : State} (hi : s.Inv) (hs : s.seq = .wake) : (wakeHigh s).Inv :=
  have hoe (c : Nat) (k : Channel) (hk : (wakeHigh s).chans[c]? = some k) :
      ∃ k₀, s.chans[c]? = some k₀ ∧ k.oe = k₀.oe ∧ (k₀.wf → k.wf) ∧ (k₀.out = Level.high → k.out = Level.high) := by
    obtain ⟨k₀, hk₀, rfl⟩ := getElem?_modify_eq_some.mp hk
    refine ⟨k₀, hk₀, ?_⟩
    split
    · exact ⟨rfl, id, fun _ => rfl⟩
    · exact ⟨rfl, id, id⟩
  { hi with
    channels := (List.length_modify ..).trans hi.channels
    queues := fun c k hk => by
      obtain ⟨k₀, hk₀, -, hw, -⟩ := hoe c k hk
      exact hw (hi.queues c k₀ hk₀)
    driven := fun c k hk ho => by
      obtain ⟨k₀, hk₀, he, -, -⟩ := hoe c k hk
      exact hi.driven c k₀ hk₀ (he.symm.trans ho)
    wake := fun _ => by
      refine ⟨le_refl _, fun k hk => ?_⟩
      obtain ⟨k₀, hk₀, he, -, -⟩ := hoe _ k hk
      exact ⟨he.trans ((hi.wake hs).2 k₀ hk₀).1, fun _ => rfl, fun _ => wakeHigh_out hk⟩
    sleep := fun h => nomatch hs.symm.trans h
    released := fun c k hk ho => by
      obtain ⟨k₀, hk₀, he, -, hh⟩ := hoe c k hk
      exact hh (hi.released c k₀ hk₀ (he.symm.trans ho)) }

/-- The way out of WAKE: the line of `CH` is released once it is driven high (R157). -/
theorem enterAck_inv {s : State} (hi : s.Inv) (hs : s.seq = .wake)
    (hout : ∀ k, s.chans[s.ch]? = some k → k.out = Level.high) : (enterAck s).Inv := by
  obtain ⟨-, -, hcnt⟩ := hi.counters
  refine State.inv_of_atRest nofun hi.legal ((List.length_modify ..).trans hi.channels) hi.current ?_ hi.thc
    ⟨Nat.succ_pos _, Nat.zero_le _, le_refl _⟩ ?_ ⟨Nat.zero_le _, Nat.zero_le _, hcnt⟩ ?_
  · intro c k hk
    obtain ⟨k₀, hk₀, rfl⟩ := getElem?_modify_eq_some.mp hk
    have hw : k₀.wf := hi.queues c k₀ hk₀
    split
    next hc => exact ⟨hw, rfl, hout k₀ (hc ▸ hk₀)⟩
    next hc =>
      have ho : k₀.oe = false := Bool.eq_false_iff.mpr fun h => hc (hi.driven c k₀ hk₀ h).2.symm
      exact ⟨hw, ho, hi.released c k₀ hk₀ ho⟩
  · have hf := hi.flags
    simp only [State.flagsMatch, hs] at hf
    exact hf
  · exact fun h => nomatch (hi.not_cycling (.inr (.inl hs))).symm.trans h

theorem wakeTick_inv {s : State} (hi : s.Inv) (hs : s.seq = .wake) : (wakeTick s).Inv := by
  obtain ⟨htmr, hline⟩ := hi.wake hs
  unfold wakeTick
  split
  next hlt =>
    have hout (k : Channel) (hk : s.chans[s.ch]? = some k) :
        k.oe = true ∧ (k.out = Level.high ↔ s.tmr + 1 = Config.wakeLowTicks) := by
      obtain ⟨ho, he⟩ := hline k hk
      refine ⟨ho, he.trans ?_⟩
      omega
    exact { hi with
      wake := fun _ => ⟨hlt.le, hout⟩
      sleep := fun h => nomatch hs.symm.trans h }
  next hge =>
    split
    · exact (wakeHigh_inv hi hs).tick
    next hne => exact (enterAck_inv hi hs fun k hk => (hline k hk).2.mpr (by omega)).tick

/-- What is left of WAKE at once: its last tick, and then the way out. -/
theorem wakeAll_inv {s : State} (hi : s.Inv) (hs : s.seq = .wake) : (wakeAll s).Inv :=
  (enterAck_inv (wakeHigh_inv hi hs) hs fun _ => wakeHigh_out).of_inputs ..

/-! ## ACK keeps the invariant -/

theorem toNat_count_succ {a : Count} (h : a.toNat < Config.ackBudget) : (a + 1).toNat = a.toNat + 1 := by
  have hlt : a.toNat < 255 := h
  rw [BitVec.toNat_add]
  exact Nat.mod_eq_of_lt (show a.toNat + 1 < 512 by omega)

theorem countAfter_toNat_le {a : Count} (h : a.toNat < Config.ackBudget) (half : Bool) (v : Level) :
    (countAfter half v a).toNat ≤ a.toNat + 1 := by
  unfold countAfter
  split
  · exact (toNat_count_succ h).le
  · exact Nat.le_succ _

theorem threshold_le (half : Bool) : threshold half ≤ 65 := by cases half <;> decide

/-- How many polls an ACK still has before its last one (R164). -/
def ackRoom (s : State) : Nat := (254 - s.polls.toNat) + if s.ah then 0 else 255

/-- `t` is an ACK under way after `s`: its counters are in their ranges, and there is less room left. -/
def ackGoesOn (s t : State) : Prop :=
  (∃ h p a, t = { s.sampled with ah := h, polls := p, acnt := a }) ∧
    (t.polls.toNat < Config.ackBudget ∧ t.acnt.toNat ≤ threshold t.ah ∧ t.acnt.toNat ≤ t.polls.toNat) ∧ ackRoom t < ackRoom s

/-- What a tick of a running ACK can do: go on, succeed, or fail; its last poll is counted (log 2). -/
theorem ackTick_cases {s : State} (hpolls : s.polls.toNat < Config.ackBudget) (hthr : s.acnt.toNat ≤ threshold s.ah)
    (hle : s.acnt.toNat ≤ s.polls.toNat) :
    ackGoesOn s (ackTick s) ∨
    ∃ (a p : Count), p.toNat ≤ Config.ackBudget ∧ a.toNat ≤ 66 ∧
      (ackTick s = enterCapture { s.sampled with acnt := a, polls := p } ∨
        ackTick s = raise (.acknowledgeTimeout s.ch s.ah) { s.sampled with acnt := a, polls := p, ackOk := false }) := by
  have hp : (s.polls + 1).toNat = s.polls.toNat + 1 := toNat_count_succ hpolls
  have ha := countAfter_toNat_le (hle.trans_lt hpolls) s.ah s.level
  have hthr65 := threshold_le s.ah
  have hplast : (s.polls + 1).toNat ≤ Config.ackBudget := hp.trans_le hpolls
  have halast : (countAfter s.ah s.level s.acnt).toNat ≤ 66 := by omega
  unfold ackTick
  dsimp only
  split
  · split
    · exact .inr ⟨_, _, hplast, halast, .inl rfl⟩
    next hfirst =>
      refine .inl ⟨⟨_, _, _, rfl⟩, ⟨Nat.succ_pos _, Nat.zero_le _, le_refl _⟩, ?_⟩
      show 254 - 0 + 0 < (254 - s.polls.toNat) + if s.ah then 0 else 255
      rw [if_neg hfirst]
      omega
  next hlow =>
    split
    · exact .inr ⟨_, _, hplast, halast, .inr rfl⟩
    next hmore =>
      have hlt : (s.polls + 1).toNat < Config.ackBudget := lt_of_le_of_ne hplast hmore
      refine .inl ⟨⟨_, _, _, rfl⟩, ⟨hlt, Nat.le_of_not_lt hlow, (ha.trans (Nat.succ_le_succ hle)).trans_eq hp.symm⟩, ?_⟩
      have hlt255 : (s.polls + 1).toNat < 255 := hlt
      refine Nat.add_lt_add_right ?_ _
      show 254 - (s.polls + 1).toNat < 254 - s.polls.toNat
      omega

theorem enterSleep_phaseInRange (s : State) : (enterSleep s).phaseInRange := by
  show 0 < 2000000 + _ + _
  omega

theorem raise_phaseInRange (ev : DiagEvent) (s : State) : (raise ev s).phaseInRange := enterSleep_phaseInRange s

theorem ackTick_inv {s : State} (hi : s.Inv) (hs : s.seq = .ack) : (ackTick s).Inv := by
  obtain ⟨hpolls, hthr, hle⟩ := hi.ack hs
  have hf := hi.flags
  simp only [State.flagsMatch, hs] at hf
  obtain ⟨-, hcap, hcsum, hacc, herr⟩ := hf
  have hnot : s.seq ≠ .wake := by simp [hs]
  have hcyc : s.cycling = true → False := fun h => nomatch (hi.not_cycling (.inr (.inr hs))).symm.trans h
  obtain ⟨-, -, hcnt⟩ := hi.counters
  rcases ackTick_cases hpolls hthr hle with ⟨⟨h, p, a, e⟩, hr, -⟩ | ⟨a, p, hp, ha, e | e⟩
  · have hthr65 := threshold_le (ackTick s).ah
    have hcounters : (ackTick s).polls.toNat ≤ Config.ackBudget ∧ (ackTick s).acnt.toNat ≤ 66 :=
      ⟨hr.1.le, hr.2.1.trans (by omega)⟩
    rw [e] at hr hcounters ⊢
    refine hi.of_same_lines hnot (by simp [hs]) rfl rfl rfl hi.thc ?_ hi.flags ⟨hcounters.1, hcounters.2, hcnt⟩
      hi.pass
    simpa only [State.phaseInRange, State.sampled_seq, hs] using hr
  · rw [e]
    exact hi.of_same_lines hnot nofun rfl rfl rfl hi.thc (Nat.succ_pos _) ⟨rfl, hcap, hcsum, hacc, herr⟩
      ⟨hp, ha, fun n _ => lt_of_lt_of_le (Nat.succ_pos 255) (le_max_left _ n)⟩ fun h => (hcyc h).elim
  · rw [e]
    exact hi.of_same_lines hnot nofun rfl rfl rfl hi.thc (raise_phaseInRange _ _) ⟨rfl, hcap, hcsum, hacc⟩
      ⟨hp, ha, hcnt⟩ fun h => (hcyc h).elim

/-! ## One tick of CAPTURE, phase by phase (R99) -/

theorem captureTick_of_pre {s : State} (h : s.cph = .pre) :
    captureTick s = if s.cnt + 1 < Config.preTicks then { s.sampled with cnt := s.cnt + 1 }
      else { s.sampled with cph := .low, cnt := 0 } := by
  simp only [captureTick, captureRow, State.sampled_cph, h, State.sampled_cnt]

theorem captureTick_of_low {s : State} (h : s.cph = .low) :
    captureTick s = if s.level then countHigh 1 s.sampled
      else if s.cnt + 1 < Config.lowCeil then { s.sampled with cnt := s.cnt + 1 }
      else { s.sampled with cph := .high, cnt := 0 } := by
  simp only [captureTick, captureRow, State.sampled_cph, h, State.sampled_cnt]

theorem captureTick_of_high {s : State} (h : s.cph = .high) :
    captureTick s = if s.level then countHigh (s.cnt + 1) s.sampled else storeBit s.sampled := by
  simp only [captureTick, captureRow, State.sampled_cph, h, State.sampled_cnt]

/-! ## CAPTURE keeps the invariant -/

/-- How many ticks a capture with `HIGH_CEIL = some n` can still take before the tick that ends it (R93, R94, R173). -/
def captureRoom (n : Nat) (s : State) : Nat :=
  match s.cph with
  | .pre => (Config.preTicks - s.cnt) + 40 * (Config.lowCeil + n)
  | .low => (Config.lowCeil - s.cnt) + n + (39 - s.idx.val) * (Config.lowCeil + n)
  | .high => (n - s.cnt) + (39 - s.idx.val) * (Config.lowCeil + n)
  | .idle | .done | .fail => 0

/-- `t` is a capture under way after `s`: its counters are in their ranges, and there is less room left. -/
def captureGoesOn (s t : State) : Prop :=
  (∃ p n i r, t = { s.sampled with cph := p, cnt := n, idx := i, raw := r }) ∧ t.captureInRange ∧
    ∀ n, s.cfg.highCeil = some n → captureRoom n t < captureRoom n s

/-- A capture that ends well (R96). -/
def captureSucceeds (s t : State) : Prop :=
  ∃ r, t = { s.sampled with cph := .done, capOk := true, seq := .decode, raw := r }

/-- A capture that fails (R97). -/
def captureFails (s t : State) : Prop :=
  t = raise (.incompleteCapture s.ch s.idx) { s.sampled with cph := .fail, capOk := false }

/-- A high sample reaches the ceiling or goes on, if the count before it was below the ceiling and left that much room. -/
theorem countHigh_cases {s : State} {h : Nat} (hle : ∀ n, s.cfg.highCeil = some n → h ≤ n)
    (hroom : ∀ n, h < n → n - h + (39 - s.idx.val) * (Config.lowCeil + n) < captureRoom n s) :
    captureGoesOn s (countHigh h s.sampled) ∨ captureFails s (countHigh h s.sampled) := by
  unfold countHigh
  split
  · exact .inr rfl
  next hne =>
    have hlt (n : Nat) (hn : s.cfg.highCeil = some n) : h < n := lt_of_le_of_ne (hle n hn) fun e => hne (e ▸ hn)
    exact .inl ⟨⟨_, _, _, _, rfl⟩, hlt, fun n hn => hroom n (hlt n hn)⟩

/-- Before the last bit there is one bit less to come after it. -/
theorem laterBits_succ {i : Fin 40} (h : i.val < 39) (w : Nat) : (39 - (i + 1).val) * w + w = (39 - i.val) * w := by
  have hv : (i + 1).val = i.val + 1 := Fin.val_add_one_of_lt (Fin.lt_def.mpr h)
  rw [hv, ← Nat.succ_mul]
  congr 1
  omega

theorem storeBit_cases {s : State} (hp : s.cph = .high) (hlt : ∀ n, s.cfg.highCeil = some n → s.cnt < n) :
    captureGoesOn s (storeBit s.sampled) ∨ captureSucceeds s (storeBit s.sampled) := by
  unfold storeBit
  split
  next hidx =>
    refine .inl ⟨⟨_, _, _, _, rfl⟩, (by decide : 1 < Config.lowCeil), fun n hn => ?_⟩
    have hcnt := hlt n hn
    have hlater := laterBits_succ hidx (Config.lowCeil + n)
    simp only [captureRoom, hp, State.sampled_idx] at hlater ⊢
    omega
  · exact .inr ⟨_, rfl⟩

/-- What a tick of a running capture can do: go on, succeed, or fail. -/
theorem captureTick_cases {s : State} (hr : s.captureInRange) (hc : s.cfg.highCeil ≠ some 0) :
    captureGoesOn s (captureTick s) ∨ captureSucceeds s (captureTick s) ∨ captureFails s (captureTick s) := by
  have hpos (n : Nat) (hn : s.cfg.highCeil = some n) : 0 < n := Nat.pos_of_ne_zero fun e => hc (e ▸ hn)
  unfold State.captureInRange at hr
  cases hp : s.cph
  case pre =>
    rw [captureTick_of_pre hp]
    simp only [hp] at hr
    left
    split
    next h =>
      refine ⟨⟨_, _, _, _, rfl⟩, ?_, fun n hn => ?_⟩
      · simpa [State.captureInRange, hp] using h
      · simp only [captureRoom, hp, State.sampled_cph]
        omega
    · refine ⟨⟨_, _, _, _, rfl⟩, Nat.succ_pos 255, fun n hn => ?_⟩
      have hlater : (39 - s.idx.val) * (Config.lowCeil + n) ≤ 39 * (Config.lowCeil + n) :=
        Nat.mul_le_mul_right _ (Nat.sub_le ..)
      simp only [captureRoom, hp, State.sampled_idx]
      omega
  case low =>
    rw [captureTick_of_low hp]
    simp only [hp] at hr
    split
    · refine (countHigh_cases (fun n hn => hpos n hn) fun n hn => ?_).imp_right .inr
      simp only [captureRoom, hp]
      omega
    left
    split
    next h =>
      refine ⟨⟨_, _, _, _, rfl⟩, ?_, fun n hn => ?_⟩
      · simpa [State.captureInRange, hp] using h
      · simp only [captureRoom, hp, State.sampled_cph, State.sampled_idx]
        omega
    · refine ⟨⟨_, _, _, _, rfl⟩, hpos, fun n hn => ?_⟩
      simp only [captureRoom, hp, State.sampled_idx]
      omega
  case high =>
    rw [captureTick_of_high hp]
    simp only [hp] at hr
    split
    · refine (countHigh_cases hr fun n hn => ?_).imp_right .inr
      simp only [captureRoom, hp]
      omega
    · exact (storeBit_cases hp hr).imp_right .inl
  all_goals simp [hp] at hr

/-- Counters in the range of a running capture are in the range they keep ever after. -/
theorem State.captureInRange.cnt_lt {s : State} (h : s.captureInRange) (n : Nat) (hn : s.cfg.highCeil = some n) :
    s.cnt < max Config.lowCeil n := by
  unfold State.captureInRange at h
  split at h
  · exact lt_max_of_lt_left (lt_trans h (by decide))
  · exact lt_max_of_lt_left h
  · exact lt_max_of_lt_right (h n hn)
  all_goals exact h.elim

theorem captureTick_inv {s : State} (hi : s.Inv) (hs : s.seq = .capture) : (captureTick s).Inv := by
  have hf := hi.flags
  simp only [State.flagsMatch, hs] at hf
  obtain ⟨hack, hcap, hcsum, hacc, herr⟩ := hf
  have hnot : s.seq ≠ .wake := by simp [hs]
  obtain ⟨hpolls, hacnt, -⟩ := hi.counters
  rcases captureTick_cases (hi.capture hs) hi.highCeil_ne_zero with ⟨⟨p, n, i, r, e⟩, hr, -⟩ | ⟨r, e⟩ | e
  · have hlt := hr.cnt_lt
    rw [e] at hr hlt ⊢
    refine hi.of_same_lines hnot (by simp [hs]) rfl rfl rfl hi.thc ?_ hi.flags ⟨hpolls, hacnt, hlt⟩ hi.pass
    simpa only [State.phaseInRange, State.sampled_seq, hs] using hr
  · rw [e]
    exact hi.of_same_lines hnot nofun rfl rfl rfl hi.thc rfl ⟨hack, rfl, hcsum, hacc, herr⟩ hi.counters
      fun h => ⟨(hi.pass h).1, .inr (.inl rfl)⟩
  · rw [e]
    exact hi.of_same_lines hnot nofun rfl rfl rfl hi.thc (raise_phaseInRange _ _) ⟨hack, rfl, hcsum, hacc⟩ hi.counters
      fun h => ⟨(hi.pass h).1, .inr (.inr (.inr rfl))⟩

/-! ## DECODE, PUBLISH and SLEEP keep the invariant -/

theorem decodeFrame_decoded {s : State} (h : (decodeFrame s).csumOk = true) : (decodeFrame s).decoded :=
  ⟨rfl, rfl, rfl, rfl, rfl, h⟩

theorem decodeStep_inv {s : State} (hi : s.Inv) (hs : s.seq = .decode) : (decodeStep s).Inv := by
  have hf := hi.flags
  simp only [State.flagsMatch, hs] at hf
  obtain ⟨hack, hcap, -, hacc, herr⟩ := hf
  have hnot : s.seq ≠ .wake := by simp [hs]
  have hthc : (decodeFrame s).thc.getLsbD 7 = false := correctedHigh_bit7 s.raw
  unfold decodeStep
  dsimp only
  split
  next hc =>
    exact hi.of_same_lines hnot nofun rfl rfl rfl hthc (decodeFrame_decoded hc) ⟨hack, hcap, hc, hacc, herr⟩ hi.counters
      fun h => ⟨(hi.pass h).1, .inr (.inr (.inl rfl))⟩
  next hc =>
    exact hi.of_same_lines hnot nofun rfl rfl rfl hthc (raise_phaseInRange _ _)
      ⟨hack, hcap, Bool.eq_false_iff.mpr hc, hacc⟩ hi.counters fun h => ⟨(hi.pass h).1, .inr (.inr (.inr rfl))⟩

theorem Channel.push_atRest {k : Channel} (h : k.AtRest) (hf : k.full = false) (e : Entry) : (k.push e).AtRest := by
  obtain ⟨hw, ho, hv⟩ := h
  exact ⟨Channel.push_wf hw hf e, ho, hv⟩

theorem publishStep_inv {s : State} {k : Channel} (hi : s.Inv) (hs : s.seq = .publish) (hk : s.chans[s.ch]? = some k) :
    (publishStep k s).Inv := by
  have hf := hi.flags
  simp only [State.flagsMatch, hs] at hf
  obtain ⟨hack, hcap, hcsum, -, herr⟩ := hf
  have hnot : s.seq ≠ .wake := by simp [hs]
  have hpass : (enterSleep s).passInRange := fun h => ⟨(hi.pass h).1, .inr (.inr (.inr rfl))⟩
  unfold publishStep
  split
  · refine hi.of_same_lines hnot nofun rfl rfl rfl hi.thc (enterSleep_phaseInRange _) ?_ hi.counters hpass
    simp [State.flagsMatch, *]
  next hfull =>
    refine State.inv_of_atRest nofun hi.legal ((List.length_modify ..).trans hi.channels) hi.current ?_ hi.thc
      (enterSleep_phaseInRange _) ?_ hi.counters hpass
    · intro c k' hk'
      obtain ⟨k₀, hk₀, rfl⟩ := getElem?_modify_eq_some.mp hk'
      have hrest := hi.atRest hnot hk₀
      split
      next hc =>
        obtain rfl : k = k₀ := Option.some.inj (hk.symm.trans (hc ▸ hk₀))
        exact Channel.push_atRest hrest (Bool.eq_false_iff.mpr hfull) _
      · exact hrest
    · simp [State.flagsMatch, *]

/-- The end of SLEEP: the next channel's IDLE (R170), with `TMR` and the tick count wherever they are. -/
theorem endSleep_inv {s : State} (hi : s.Inv) (hs : s.seq = .sleep) (m n : Nat) :
    ({ s with tmr := m, now := n, seq := .idle, ch := nextChannel s, sleeps := s.sleeps + 1, cycling := false } : State).Inv := by
  refine State.inv_of_atRest nofun hi.legal hi.channels (Nat.mod_lt _ hi.nch_pos) (fun c k hk => hi.atRest (by simp [hs]) hk)
    hi.thc trivial ?_ hi.counters nofun
  have hf := hi.flags
  simp only [State.flagsMatch, hs] at hf ⊢
  split at hf <;> simp_all

theorem sleepTick_inv {s : State} (hi : s.Inv) (hs : s.seq = .sleep) : (sleepTick s).Inv := by
  unfold sleepTick
  split
  · exact endSleep_inv hi hs _ _
  next hd => exact { hi with
    wake := fun h => nomatch hs.symm.trans h
    sleep := fun _ => Nat.lt_of_not_le hd }

theorem sleepAll_inv {s : State} (hi : s.Inv) (hs : s.seq = .sleep) : (sleepAll s).Inv := endSleep_inv hi hs _ _

/-! ## A sequencer step, and what it does to the channels -/

/-- `t` is `s` but for the registers that ACK and its entry actions write (R30). -/
theorem ackTick_writes (s : State) : ackTick s = { s with
    seq := (ackTick s).seq, tmr := (ackTick s).tmr, ah := (ackTick s).ah, polls := (ackTick s).polls, acnt := (ackTick s).acnt
    cph := (ackTick s).cph, cnt := (ackTick s).cnt, idx := (ackTick s).idx, ackOk := (ackTick s).ackOk
    err := (ackTick s).err, diag := (ackTick s).diag, samples := s.samples.tail, now := s.now + 1 } := by
  unfold ackTick
  dsimp only
  split
  · split <;> rfl
  split <;> rfl

theorem captureRow_writes (v : Level) (s : State) : captureRow v s = { s with
    seq := (captureRow v s).seq, tmr := (captureRow v s).tmr, cph := (captureRow v s).cph, cnt := (captureRow v s).cnt
    idx := (captureRow v s).idx, raw := (captureRow v s).raw, capOk := (captureRow v s).capOk
    err := (captureRow v s).err, diag := (captureRow v s).diag } := by
  unfold captureRow countHigh storeBit
  split
  case h_1 => split <;> rfl
  case h_2 =>
    split
    · split <;> rfl
    split <;> rfl
  case h_3 =>
    split
    · split <;> rfl
    split <;> rfl
  all_goals rfl

theorem captureTick_writes (s : State) : captureTick s = { s with
    seq := (captureTick s).seq, tmr := (captureTick s).tmr, cph := (captureTick s).cph, cnt := (captureTick s).cnt
    idx := (captureTick s).idx, raw := (captureTick s).raw, capOk := (captureTick s).capOk
    err := (captureTick s).err, diag := (captureTick s).diag, samples := s.samples.tail, now := s.now + 1 } :=
  captureRow_writes s.level s.sampled

theorem decodeStep_writes (s : State) : decodeStep s = { s with
    seq := (decodeStep s).seq, tmr := (decodeStep s).tmr, b := (decodeStep s).b, thc := (decodeStep s).thc
    h10 := (decodeStep s).h10, tmag := (decodeStep s).tmag, csumOk := (decodeStep s).csumOk, sign := (decodeStep s).sign
    err := (decodeStep s).err, diag := (decodeStep s).diag } := by
  unfold decodeStep
  dsimp only
  split <;> rfl

theorem wakeTick_writes (s : State) : wakeTick s = { s with
    seq := (wakeTick s).seq, tmr := (wakeTick s).tmr, chans := (wakeTick s).chans, ah := (wakeTick s).ah
    polls := (wakeTick s).polls, acnt := (wakeTick s).acnt, now := s.now + 1 } := by
  unfold wakeTick
  split
  · rfl
  split <;> rfl

theorem publishStep_writes (k : Channel) (s : State) : publishStep k s = { s with
    seq := .sleep, tmr := 0, chans := (publishStep k s).chans, acc := (publishStep k s).acc } := by
  unfold publishStep
  split <;> rfl

theorem sleepTick_writes (s : State) : sleepTick s = { s with
    seq := (sleepTick s).seq, tmr := s.tmr + 1, ch := (sleepTick s).ch, now := s.now + 1
    sleeps := (sleepTick s).sleeps, cycling := (sleepTick s).cycling } := by
  unfold sleepTick
  split <;> rfl

@[simp] theorem ackTick_chans (s : State) : (ackTick s).chans = s.chans := by rw [ackTick_writes]
@[simp] theorem captureTick_chans (s : State) : (captureTick s).chans = s.chans := by rw [captureTick_writes]
@[simp] theorem captureTick_cfg (s : State) : (captureTick s).cfg = s.cfg := by rw [captureTick_writes]
@[simp] theorem decodeStep_chans (s : State) : (decodeStep s).chans = s.chans := by rw [decodeStep_writes]
@[simp] theorem sleepTick_chans (s : State) : (sleepTick s).chans = s.chans := by rw [sleepTick_writes]

/-- What a step of the sequencer can do to the registers `k` of channel `CH` (R30): IDLE and WAKE move its line, PUBLISH fills its
queue where that is not full. -/
inductive CurrentStep (s : State) (k : Channel) : Channel → Prop
  | same : CurrentStep s k k
  | line (hs : s.seq = .idle ∨ s.seq = .wake) (oe : Bool) (out : Level) : CurrentStep s k { k with oe := oe, out := out }
  | push (hs : s.seq = .publish) (hf : k.full = false) : CurrentStep s k (k.push s.entry)

/-- A step of the sequencer rewrites channel `CH` alone. -/
theorem exec_seq_chans {s t : State} (h : exec s.seq.instr s = .next t) :
    ∃ f : Channel → Channel, t.chans = s.chans.modify s.ch f ∧ ∀ k, s.chans[s.ch]? = some k → CurrentStep s k (f k) := by
  have unchanged {u : State} (hu : u.chans = s.chans) : ∃ f : Channel → Channel, u.chans = s.chans.modify s.ch f ∧
      ∀ k, s.chans[s.ch]? = some k → CurrentStep s k (f k) :=
    ⟨id, by rw [hu, List.modify_id], fun k _ => .same⟩
  rcases exec_seq_cases h with ⟨hs, -, rfl⟩ | ⟨hs, -, rfl⟩ | ⟨hs, -, rfl⟩ | ⟨hs, -, rfl⟩ | ⟨hs, -, rfl⟩ |
    ⟨hs, -, k, hk, rfl⟩ | ⟨hs, rfl⟩
  · exact ⟨_, rfl, fun k _ => .line (.inl hs) _ _⟩
  · unfold wakeTick
    split
    · exact unchanged rfl
    split
    · exact ⟨_, rfl, fun k _ => .line (.inr hs) k.oe _⟩
    · exact ⟨_, rfl, fun k _ => .line (.inr hs) _ k.out⟩
  · exact unchanged (ackTick_chans s)
  · exact unchanged (captureTick_chans s)
  · exact unchanged (decodeStep_chans s)
  · unfold publishStep
    split
    · exact unchanged rfl
    next hf =>
      refine ⟨_, rfl, fun k' hk' => ?_⟩
      obtain rfl : k = k' := Option.some.inj (hk.symm.trans hk')
      exact .push hs (Bool.eq_false_iff.mpr hf)
  · exact unchanged (sleepTick_chans s)

theorem CurrentStep.frame {s : State} {k k' : Channel} (h : CurrentStep s k k') : k'.rd = k.rd ∧
    (k'.oe ≠ k.oe ∨ k'.out ≠ k.out → s.seq = .idle ∨ s.seq = .wake) ∧
    (k'.mem ≠ k.mem ∨ k'.wr ≠ k.wr ∨ k'.count ≠ k.count → s.seq = .publish) := by
  cases h with
  | same => simp
  | line hs => simp [hs]
  | push hs => simp [hs]

/-- A channel after a step of the sequencer is the one before, or that of `CH`, rewritten. -/
theorem exec_seq_chan {s t : State} (h : exec s.seq.instr s = .next t) {c : Nat} {k k' : Channel}
    (hk : s.chans[c]? = some k) (hk' : t.chans[c]? = some k') : k' = k ∨ c = s.ch ∧ CurrentStep s k k' := by
  obtain ⟨f, hf, hcur⟩ := exec_seq_chans h
  obtain ⟨k₀, hk₀, rfl⟩ := getElem?_modify_eq_some.mp (hf ▸ hk')
  obtain rfl : k = k₀ := Option.some.inj (hk.symm.trans hk₀)
  split
  next hc => exact .inr ⟨hc.symm, hcur k (hc ▸ hk)⟩
  · exact .inl rfl

theorem exec_seq_chans_length {s t : State} (h : exec s.seq.instr s = .next t) : t.chans.length = s.chans.length := by
  obtain ⟨f, hf, -⟩ := exec_seq_chans h
  rw [hf, List.length_modify]

/-- Settles O51: by the operation of the phase, each with the registers it writes; the channels by `exec_seq_chan`. -/
theorem whoWritesWhat : Obligations.WhoWritesWhat := by
  intro s t h
  have hchans : t.chans.length = s.chans.length ∧
      ∀ (c : Nat) (k k' : Channel), s.chans[c]? = some k → t.chans[c]? = some k' →
        k'.rd = k.rd ∧
        (k'.oe ≠ k.oe ∨ k'.out ≠ k.out → c = s.ch ∧ (s.seq = .idle ∨ s.seq = .wake)) ∧
        (k'.mem ≠ k.mem ∨ k'.wr ≠ k.wr ∨ k'.count ≠ k.count → c = s.ch ∧ s.seq = .publish) := by
    refine ⟨exec_seq_chans_length h, fun c k k' hk hk' => ?_⟩
    rcases exec_seq_chan h hk hk' with rfl | ⟨hc, hstep⟩
    · simp
    · obtain ⟨hrd, hline, hqueue⟩ := hstep.frame
      exact ⟨hrd, fun hne => ⟨hc, hline hne⟩, fun hne => ⟨hc, hqueue hne⟩⟩
  rcases exec_seq_cases h with ⟨hs, -, rfl⟩ | ⟨hs, -, rfl⟩ | ⟨hs, -, rfl⟩ | ⟨hs, -, rfl⟩ | ⟨hs, -, rfl⟩ |
    ⟨hs, -, k, -, rfl⟩ | ⟨hs, rfl⟩
  · simpa [hs, idleTick] using hchans
  · rw [wakeTick_writes s] at hchans ⊢
    simpa [hs] using hchans
  · rw [ackTick_writes s] at hchans ⊢
    simpa [hs] using hchans
  · rw [captureTick_writes s] at hchans ⊢
    simpa [hs] using hchans
  · rw [decodeStep_writes s] at hchans ⊢
    simpa [hs] using hchans
  · rw [publishStep_writes k s] at hchans ⊢
    simpa [hs] using hchans
  · rw [sleepTick_writes s] at hchans ⊢
    simpa [hs] using hchans

/-! ## TRY_READ keeps the invariant, alone and beside a step of the sequencer (R59) -/

theorem popChan_inv {s : State} (hi : s.Inv) {c : Nat} (he : ∀ k, s.chans[c]? = some k → k.empty = false) :
    (s.onChan c fun k => k.pop).Inv :=
  have hpop (d : Nat) (k : Channel) (hk : (s.onChan c fun k => k.pop).chans[d]? = some k) :
      ∃ k₀, s.chans[d]? = some k₀ ∧ k.oe = k₀.oe ∧ k.out = k₀.out ∧ k.wf := by
    obtain ⟨k₀, hk₀, rfl⟩ := getElem?_modify_eq_some.mp hk
    refine ⟨k₀, hk₀, ?_⟩
    split
    next hc => exact ⟨rfl, rfl, Channel.pop_wf (hi.queues d k₀ hk₀) (he k₀ (hc ▸ hk₀))⟩
    · exact ⟨rfl, rfl, hi.queues d k₀ hk₀⟩
  { hi with
    channels := (List.length_modify ..).trans hi.channels
    queues := fun d k hk => by
      obtain ⟨k₀, -, -, -, hw⟩ := hpop d k hk
      exact hw
    driven := fun d k hk ho => by
      obtain ⟨k₀, hk₀, hoe, -, -⟩ := hpop d k hk
      exact hi.driven d k₀ hk₀ (hoe ▸ ho)
    wake := fun hs => by
      refine ⟨(hi.wake hs).1, fun k hk => ?_⟩
      obtain ⟨k₀, hk₀, hoe, hout, -⟩ := hpop _ k hk
      rw [hoe, hout]
      exact (hi.wake hs).2 k₀ hk₀
    released := fun d k hk ho => by
      obtain ⟨k₀, hk₀, hoe, hout, -⟩ := hpop d k hk
      rw [hout]
      exact hi.released d k₀ hk₀ (hoe ▸ ho) }

theorem tryReadFrom_inv {pre post t : State} {c : Nat} (hi : post.Inv) (h : tryReadFrom pre post c = .next t)
    (he : ∀ k, pre.chans[c]? = some k → k.empty = false → ∀ k', post.chans[c]? = some k' → k'.empty = false) : t.Inv := by
  obtain ⟨k, hk, rfl⟩ := tryReadFrom_eq_next.mp h
  split
  · exact hi.of_inputs ..
  next hne => exact (popChan_inv hi (he k hk (Bool.eq_false_iff.mpr hne))).of_inputs ..

theorem execTryRead_inv {s t : State} {c : Nat} (hi : s.Inv) (h : execTryRead c s = .next t) : t.Inv :=
  tryReadFrom_inv hi h fun _ hk he _ hk' => Option.some.inj (hk.symm.trans hk') ▸ he

theorem Channel.push_not_empty {k : Channel} (h : k.full = false) (e : Entry) : (k.push e).empty = false := by
  rcases k with ⟨oe, out, mem, wr, rd, count⟩
  fin_cases count <;> simp_all [Channel.full, Channel.empty, Channel.push]

theorem CurrentStep.not_empty {s : State} {k k' : Channel} (h : CurrentStep s k k') (he : k.empty = false) :
    k'.empty = false := by
  cases h with
  | same => exact he
  | line => exact he
  | push _ hf => exact Channel.push_not_empty hf _

/-- A step of the sequencer empties no queue, so a TRY_READ in the same tick still finds the entry it saw. -/
theorem exec_seq_not_empty {s t : State} (h : exec s.seq.instr s = .next t) {c : Nat} {k k' : Channel}
    (hk : s.chans[c]? = some k) (he : k.empty = false) (hk' : t.chans[c]? = some k') : k'.empty = false := by
  rcases exec_seq_chan h hk hk' with rfl | ⟨-, hstep⟩
  · exact he
  · exact hstep.not_empty he

/-! ## The runs inside CYCLE -/

section
variable {p : Phase} {op : State → State} {P : State → Prop} (hop : ∀ s, P s → s.seq = p → P (op s))
include hop

/-- What an operation keeps in its phase holds at the end of its run. -/
theorem whilePhase_keeps (n : Nat) {s : State} (h : P s) : P (whilePhase p op n s) := by
  induction n generalizing s with
  | zero => exact h
  | succ n ih =>
    unfold whilePhase
    split
    next hs => exact ih (hop s h hs)
    · exact h

/-- An operation that uses up a room of less than `n` ticks has left its phase after `n`. -/
theorem whilePhase_leaves {room : State → Nat}
    (hroom : ∀ s, P s → s.seq = p → (op s).seq = p → room (op s) < room s) (n : Nat) {s : State} (h : P s)
    (hn : room s < n) : (whilePhase p op n s).seq ≠ p := by
  induction n generalizing s with
  | zero => omega
  | succ n ih =>
    unfold whilePhase
    split
    next hs =>
      by_cases ht : (op s).seq = p
      · exact ih (hop s h hs) (by have := hroom s h hs ht; omega)
      · cases n with
        | zero => exact ht
        | succ n => rwa [whilePhase, if_neg ht]
    next hs => exact hs

end

/-! ## CYCLE keeps the invariant -/

theorem ackTick_progress {s : State} (hi : s.Inv) (hs : s.seq = .ack) :
    ((ackTick s).seq = .ack ∧ ackRoom (ackTick s) < ackRoom s) ∨ (ackTick s).underWay := by
  obtain ⟨hpolls, hthr, hle⟩ := hi.ack hs
  rcases ackTick_cases hpolls hthr hle with ⟨⟨h, p, a, e⟩, -, hroom⟩ | ⟨a, p, -, -, e | e⟩
  · exact .inl ⟨by rw [e]; exact hs, hroom⟩
  · exact .inr (.inl (by rw [e]; rfl))
  · exact .inr (.inr (.inr (.inr (by rw [e]; rfl))))

theorem captureTick_progress {s : State} (hi : s.Inv) (hs : s.seq = .capture) : (captureTick s).underWay ∧
    ((captureTick s).seq = .capture → ∀ n, s.cfg.highCeil = some n → captureRoom n (captureTick s) < captureRoom n s) := by
  rcases captureTick_cases (hi.capture hs) hi.highCeil_ne_zero with ⟨⟨p, n, i, r, e⟩, -, hroom⟩ | ⟨r, e⟩ | e
  · exact ⟨.inl (by rw [e]; exact hs), fun _ => hroom⟩
  · rw [e]
    exact ⟨.inr (.inl rfl), nofun⟩
  · rw [e]
    exact ⟨.inr (.inr (.inr rfl)), nofun⟩

/-- An ACK is over within its two budgets (R164). -/
theorem ackAll_inv {s : State} (hi : s.Inv) (hs : s.seq = .ack) :
    (whilePhase .ack ackTick ackTicksMax s).Inv ∧ (whilePhase .ack ackTick ackTicksMax s).underWay := by
  have hkeep (u : State) (hu : u.Inv ∧ (u.seq = .ack ∨ u.underWay)) (ha : u.seq = .ack) :
      (ackTick u).Inv ∧ ((ackTick u).seq = .ack ∨ (ackTick u).underWay) :=
    ⟨ackTick_inv hu.1 ha, (ackTick_progress hu.1 ha).imp_left And.left⟩
  have hroom (u : State) (hu : u.Inv ∧ (u.seq = .ack ∨ u.underWay)) (ha : u.seq = .ack) (ht : (ackTick u).seq = .ack) :
      ackRoom (ackTick u) < ackRoom u := by
    rcases ackTick_progress hu.1 ha with ⟨-, h⟩ | h
    · exact h
    · simp [State.underWay, ht] at h
  have hstart : ackRoom s < ackTicksMax := by
    show (254 - s.polls.toNat) + (if s.ah then 0 else 255) < 510
    split <;> omega
  obtain ⟨hinv, hseq⟩ := whilePhase_keeps hkeep ackTicksMax ⟨hi, .inl hs⟩
  exact ⟨hinv, hseq.resolve_left (whilePhase_leaves hkeep hroom ackTicksMax ⟨hi, .inl hs⟩ hstart)⟩

theorem captureRoom_lt (s : State) {n : Nat} (hn : s.cfg.highCeil = some n) : captureRoom n s < captureTicksMax s := by
  have hlater : (39 - s.idx.val) * (Config.lowCeil + n) ≤ 39 * (Config.lowCeil + n) :=
    Nat.mul_le_mul_right _ (Nat.sub_le ..)
  simp only [captureTicksMax, hn, Option.getD_some, captureRoom]
  split <;> omega

/-- With a ceiling, a CAPTURE is over within the ticks of R173. -/
theorem captureAll_inv {s : State} (hi : s.Inv) (hs : s.underWay) (t : State)
    (ht : t = whilePhase .capture captureTick (captureTicksMax s) s) :
    t.Inv ∧ t.underWay ∧ (t.seq = .capture → t.cfg.highCeil = none) := by
  subst ht
  have hkeep (u : State) (hu : u.Inv ∧ u.underWay ∧ u.cfg = s.cfg) (hc : u.seq = .capture) :
      (captureTick u).Inv ∧ (captureTick u).underWay ∧ (captureTick u).cfg = s.cfg :=
    ⟨captureTick_inv hu.1 hc, (captureTick_progress hu.1 hc).1, (captureTick_cfg u).trans hu.2.2⟩
  obtain ⟨hinv, hunder, hcfg⟩ := whilePhase_keeps hkeep (captureTicksMax s) ⟨hi, hs, rfl⟩
  refine ⟨hinv, hunder, fun hseq => ?_⟩
  rw [hcfg]
  refine Option.eq_none_iff_forall_ne_some.mpr fun n hn => ?_
  have hroom (u : State) (hu : u.Inv ∧ u.underWay ∧ u.cfg = s.cfg) (hc : u.seq = .capture)
      (ht : (captureTick u).seq = .capture) : captureRoom n (captureTick u) < captureRoom n u :=
    (captureTick_progress hu.1 hc).2 ht n (hu.2.2 ▸ hn)
  exact whilePhase_leaves hkeep hroom _ ⟨hi, hs, rfl⟩ (captureRoom_lt s hn) hseq

theorem cycleTail_of_capture {s : State} (h : s.seq = .capture) : cycleTail s = s := by
  simp [cycleTail, h]

theorem cycleTail_of_sleep {s : State} (h : s.seq = .sleep) : cycleTail s = sleepAll s := by
  simp [cycleTail, h]

theorem cycleTail_of_publish {s : State} {k : Channel} (h : s.seq = .publish) (hk : s.chans[s.ch]? = some k) :
    cycleTail s = sleepAll (publishStep k s) := by
  have hp : (publishStep k s).seq = .sleep := by rw [publishStep_writes]
  simp [cycleTail, h, hk, hp]

theorem decodeStep_seq (s : State) : (decodeStep s).seq = .publish ∨ (decodeStep s).seq = .sleep := by
  unfold decodeStep
  dsimp only
  split
  · exact .inl rfl
  · exact .inr rfl

theorem cycleTail_of_decode {s : State} (h : s.seq = .decode) : cycleTail s = cycleTail (decodeStep s) := by
  rcases decodeStep_seq s with hd | hd <;> simp [cycleTail, h, hd]

theorem cycleTail_inv {s : State} (hi : s.Inv) (hs : s.underWay) :
    (cycleTail s).Inv ∧ ((cycleTail s).seq = .idle ∨ s.seq = .capture ∧ cycleTail s = s) := by
  have fromSleep {u : State} (hu : u.Inv) (hz : u.seq = .sleep) : (cycleTail u).Inv ∧ (cycleTail u).seq = .idle := by
    rw [cycleTail_of_sleep hz]
    exact ⟨sleepAll_inv hu hz, rfl⟩
  have fromPublish {u : State} (hu : u.Inv) (hp : u.seq = .publish) : (cycleTail u).Inv ∧ (cycleTail u).seq = .idle := by
    obtain ⟨k, hk⟩ := hu.exists_current
    rw [cycleTail_of_publish hp hk]
    exact ⟨sleepAll_inv (publishStep_inv hu hp hk) (by rw [publishStep_writes]), rfl⟩
  rcases hs with hs | hs | hs | hs
  · rw [cycleTail_of_capture hs]
    exact ⟨hi, .inr ⟨hs, rfl⟩⟩
  · rw [cycleTail_of_decode hs]
    have hd := decodeStep_inv hi hs
    exact ((decodeStep_seq s).elim (fromPublish hd) (fromSleep hd)).imp_right .inl
  · exact (fromPublish hi hs).imp_right .inl
  · exact (fromSleep hi hs).imp_right .inl

/-- A pass that has not come to IDLE is in a CAPTURE that no ceiling ends (log 14). -/
theorem cycleRest_inv {s : State} (hi : s.Inv) (hs : s.underWay) : (cycleRest s).Inv ∧
    ((cycleRest s).seq ≠ .idle → (cycleRest s).seq = .capture ∧ (cycleRest s).cfg.highCeil = none) := by
  unfold cycleRest
  obtain ⟨hinv, hunder, hceil⟩ := captureAll_inv hi hs _ rfl
  obtain ⟨htail, hend⟩ := cycleTail_inv hinv hunder
  refine ⟨htail, fun hne => ?_⟩
  obtain ⟨hseq, e⟩ := hend.resolve_left hne
  rw [e]
  exact ⟨hseq, hceil hseq⟩

theorem markPass_inv {s : State} (hi : s.Inv) (h : s.seq ≠ .idle → s.seq = .capture ∧ s.cfg.highCeil = none) :
    (markPass s).Inv :=
  have hpass (hc : (markPass s).cycling = true) : s.cfg.highCeil = none ∧ s.underWay := by
    obtain ⟨hseq, hceil⟩ := h (of_decide_eq_true hc)
    exact ⟨hceil, .inl hseq⟩
  { hi with pass := hpass }

theorem cyclePass_inv {s : State} (hi : s.Inv) (hs : s.seq = .idle) : (cyclePass s).Inv ∧
    ((cyclePass s).seq ≠ .idle → (cyclePass s).seq = .capture ∧ (cyclePass s).cfg.highCeil = none) := by
  unfold cyclePass
  obtain ⟨hinv, hunder⟩ := ackAll_inv (wakeAll_inv (idleTick_inv hi hs) rfl) rfl
  exact cycleRest_inv hinv hunder

theorem execCycle_inv {s t : State} (hi : s.Inv) (h : execCycle s = .next t) : t.Inv := by
  obtain ⟨-, ⟨hs, rfl⟩ | ⟨-, hc, rfl⟩⟩ := execCycle_eq_next.mp h
  · obtain ⟨hpass, hend⟩ := cyclePass_inv hi hs
    exact markPass_inv hpass hend
  · obtain ⟨hrest, hend⟩ := cycleRest_inv hi (hi.pass hc).2
    exact markPass_inv hrest hend

/-! ## Every step keeps the invariant -/

theorem exec_inv {i : Instr} {s t : State} (hi : s.Inv) (h : exec i s = .next t) : t.Inv := by
  cases i with
  | idle => obtain ⟨hs, -, rfl⟩ := execIdle_eq_next.mp h; exact idleTick_inv hi hs
  | wake => obtain ⟨hs, -, rfl⟩ := execWake_eq_next.mp h; exact wakeTick_inv hi hs
  | ack => obtain ⟨hs, -, rfl⟩ := execAck_eq_next.mp h; exact ackTick_inv hi hs
  | capture => obtain ⟨hs, -, rfl⟩ := execCapture_eq_next.mp h; exact captureTick_inv hi hs
  | decode => obtain ⟨hs, -, rfl⟩ := execDecode_eq_next.mp h; exact decodeStep_inv hi hs
  | publish => obtain ⟨hs, -, k, hk, rfl⟩ := execPublish_eq_next.mp h; exact publishStep_inv hi hs hk
  | sleep => obtain ⟨hs, rfl⟩ := execSleep_eq_next.mp h; exact sleepTick_inv hi hs
  | tryRead c => exact execTryRead_inv hi h
  | cycle => exact execCycle_inv hi h

theorem runWord_eq_next {w : Nat} {s t : State} :
    runWord w s = .next t ↔ ∃ i, decodeWord w = .ok i ∧ exec i s = .next t := by
  unfold runWord
  cases decodeWord w <;> simp

theorem runTogether_eq_next {c : Nat} {s t : State} :
    runTogether c s = .next t ↔ ∃ u, exec s.seq.instr s = .next u ∧ tryReadFrom s u c = .next t := by
  have hw : runWord s.seqWord s = exec s.seq.instr s := runWord_of_decodes (decodeWord_phaseCode s.seq) s
  unfold runTogether
  rw [hw]
  cases exec s.seq.instr s <;> simp

theorem runTurn_inv {τ : Turn} {s t : State} (hi : s.Inv) (h : runTurn τ s = .next t) : t.Inv := by
  cases τ with
  | sequencer => exact exec_inv hi (runTurn_sequencer s ▸ h)
  | consumer c => exact exec_inv hi (runTurn_consumer c s ▸ h)
  | together c =>
    obtain ⟨u, hu, ht⟩ := runTogether_eq_next.mp h
    exact tryReadFrom_inv (exec_inv hi hu) ht fun k hk he k' hk' => exec_seq_not_empty hu hk he hk'
  | issue w =>
    obtain ⟨i, -, he⟩ := runWord_eq_next.mp h
    exact exec_inv hi he
  | reset =>
    cases h
    exact resetStep_inv hi

/-- Settles O48: by the turn, and the operation it runs. -/
theorem stepKeepsTheInvariant : Obligations.StepKeepsTheInvariant :=
  fun _ _ hi h => runTurn_inv hi.begin h

/-! ## Queues of which the live slots are seen -/

@[simp] theorem Channel.live_empty (k : Channel) : k.live.empty = k.empty := rfl
@[simp] theorem Channel.live_full (k : Channel) : k.live.full = k.full := rfl
theorem Channel.live_wf (k : Channel) : k.live.wf ↔ k.wf := Iff.rfl

@[simp] theorem Channel.live_live (k : Channel) : k.live.live = k.live := by
  rcases k with ⟨oe, out, mem, wr, rd, count⟩
  fin_cases count <;> simp [Channel.live]

/-- The line of a channel is no part of its queue. -/
theorem Channel.line_live (k : Channel) (oe : Bool) (out : Level) :
    ({ k.live with oe := oe, out := out } : Channel).live = ({ k with oe := oe, out := out } : Channel).live :=
  congrArg (fun j : Channel => { j with oe := oe, out := out }) k.live_live

@[simp] theorem Channel.live_comp_live : Channel.live ∘ Channel.live = Channel.live := funext Channel.live_live

/-- TRY_READ sees live slots only. -/
theorem Channel.head_live (k : Channel) : k.live.head = k.head := by
  rcases k with ⟨oe, out, mem, wr, rd, count⟩
  fin_cases count <;> simp [Channel.head, Channel.empty, Channel.live]

/-- A pop makes no slot live. -/
theorem Channel.pop_live {k : Channel} (he : k.empty = false) : k.live.pop.live = k.pop.live := by
  rcases k with ⟨oe, out, mem, wr, rd, count⟩
  fin_cases count <;> fin_cases rd <;> simp_all [Channel.empty, Channel.pop, Channel.live]

/-- Of two slots, both written, nothing is left of what they held. -/
theorem set_set_of_ne {i j : Fin 2} (h : i ≠ j) (m : Vector Entry 2) (e : Entry) :
    ((Vector.replicate 2 0).set i m[i]).set j e = m.set j e := by
  ext n hn
  by_cases hj : j.val = n
  · simp [hj]
  · have hi : i.val = n := by omega
    simp [hj, hi]

/-- A push on a queue whose registers agree writes the one slot that becomes live. -/
theorem Channel.push_live {k : Channel} (h : k.wf) (hf : k.full = false) (e : Entry) :
    (k.live.push e).live = (k.push e).live := by
  rcases k with ⟨oe, out, mem, wr, rd, count⟩
  fin_cases count <;> fin_cases rd <;> fin_cases wr <;> simp_all [Channel.wf, Channel.full, Channel.push, Channel.live]
  · exact set_set_of_ne zero_ne_one mem e
  · exact set_set_of_ne one_ne_zero mem e

theorem map_live_modify {l : List Channel} {c : Nat} {f : Channel → Channel}
    (hf : ∀ k, l[c]? = some k → (f k.live).live = (f k).live) :
    ((l.map Channel.live).modify c f).map Channel.live = (l.modify c f).map Channel.live := by
  refine List.ext_getElem? fun d => ?_
  simp only [List.getElem?_map, List.getElem?_modify]
  cases hd : l[d]? with
  | none => rfl
  | some k =>
    by_cases hc : c = d
    · subst hc
      simp [hf k hd]
    · simp [hc]

/-! ## The view `State.live` -/

@[simp] theorem State.live_seq (s : State) : s.live.seq = s.seq := rfl
@[simp] theorem State.live_ch (s : State) : s.live.ch = s.ch := rfl
@[simp] theorem State.live_tmr (s : State) : s.live.tmr = s.tmr := rfl
@[simp] theorem State.live_chans (s : State) : s.live.chans = s.chans.map Channel.live := rfl
@[simp] theorem State.live_ah (s : State) : s.live.ah = s.ah := rfl
@[simp] theorem State.live_polls (s : State) : s.live.polls = s.polls := rfl
@[simp] theorem State.live_acnt (s : State) : s.live.acnt = s.acnt := rfl
@[simp] theorem State.live_cph (s : State) : s.live.cph = s.cph := rfl
@[simp] theorem State.live_cnt (s : State) : s.live.cnt = s.cnt := rfl
@[simp] theorem State.live_idx (s : State) : s.live.idx = s.idx := rfl
@[simp] theorem State.live_raw (s : State) : s.live.raw = s.liveRaw := rfl
@[simp] theorem State.live_cfg (s : State) : s.live.cfg = s.cfg := rfl
@[simp] theorem State.live_level (s : State) : s.live.level = s.level := rfl
@[simp] theorem State.live_sleepDuration (s : State) : sleepDuration s.live = sleepDuration s := rfl

theorem State.liveRaw_of_capture {s : State} (h : s.seq = .capture) :
    s.liveRaw = Vector.ofFn fun i => if i < s.idx then s.raw[i] else false := by simp only [State.liveRaw, h]

theorem State.liveRaw_of_decode {s : State} (h : s.seq = .decode) : s.liveRaw = s.raw := by simp only [State.liveRaw, h]

theorem State.live_entry {s : State} (h : s.seq = .publish) : s.live.entry = s.entry := by
  simp [State.entry, State.live, h]

theorem State.live_chan_iff {s : State} {c : Nat} {k' : Channel} :
    s.live.chans[c]? = some k' ↔ ∃ k, s.chans[c]? = some k ∧ k' = k.live := by
  simp [eq_comm]

theorem State.live_chan {s : State} {c : Nat} {k : Channel} (h : s.chans[c]? = some k) : s.live.chans[c]? = some k.live :=
  State.live_chan_iff.mpr ⟨k, h, rfl⟩

theorem State.inputReady_live {s : State} (h : s.inputReady) : s.live.inputReady := by
  obtain ⟨k, hk, ho⟩ := h
  exact ⟨k.live, State.live_chan hk, ho⟩

theorem State.live_chans_live (s : State) : s.live.chans.map Channel.live = s.chans.map Channel.live := by simp

/-- Two states look alike if they differ only in cells of `RAW` that are not seen, in the decoder's registers where PUBLISH does not
read them, and in dead queue slots. -/
theorem State.live_eq {x y : State}
    (hrest : x = { y with
      chans := x.chans, raw := x.raw, b := x.b, thc := x.thc, h10 := x.h10, tmag := x.tmag, sign := x.sign })
    (hchans : x.chans.map Channel.live = y.chans.map Channel.live) (hraw : x.liveRaw = y.liveRaw)
    (hentry : y.seq = .publish → x.h10 = y.h10 ∧ x.tmag = y.tmag ∧ x.sign = y.sign) : x.live = y.live := by
  have hseq : x.seq = y.seq := by rw [hrest]
  unfold State.live
  rw [hchans, hraw, hseq]
  by_cases hp : y.seq = .publish
  · obtain ⟨h1, h2, h3⟩ := hentry hp
    rw [h1, h2, h3, hrest]
  · simp only [hp, if_false]
    rw [hrest]

@[simp] theorem State.live_liveRaw (s : State) : s.live.liveRaw = s.liveRaw := by
  cases h : s.seq <;> simp [State.liveRaw, h]

theorem State.live_entryRegs {s : State} (h : s.seq = .publish) :
    s.live.h10 = s.h10 ∧ s.live.tmag = s.tmag ∧ s.live.sign = s.sign := by
  simp [State.live, h]

@[simp] theorem State.live_live (s : State) : s.live.live = s.live :=
  State.live_eq rfl s.live_chans_live s.live_liveRaw State.live_entryRegs

/-! ## One step of each operation on the view -/

theorem enterWake_live (s : State) : (enterWake s.live).live = (enterWake s).live :=
  State.live_eq rfl (map_live_modify fun k _ => k.line_live _ _) rfl nofun

theorem idleTick_live (s : State) : (idleTick s.live).live = (idleTick s).live :=
  congrArg State.tick (enterWake_live s)

theorem wakeTick_live (s : State) : (wakeTick s.live).live = (wakeTick s).live := by
  unfold wakeTick
  rw [State.live_tmr]
  split_ifs
  · exact State.live_eq rfl s.live_chans_live s.live_liveRaw State.live_entryRegs
  · exact State.live_eq rfl (map_live_modify fun k _ => k.line_live _ _) s.live_liveRaw State.live_entryRegs
  · exact State.live_eq rfl (map_live_modify fun k _ => k.line_live _ _) rfl nofun

theorem wakeHigh_live (s : State) : (wakeHigh s.live).live = (wakeHigh s).live :=
  State.live_eq rfl (map_live_modify fun k _ => k.line_live _ _) s.live_liveRaw State.live_entryRegs

theorem enterAck_live (s : State) : (enterAck s.live).live = (enterAck s).live :=
  State.live_eq rfl (map_live_modify fun k _ => k.line_live _ _) rfl nofun

theorem ackTick_live (s : State) : (ackTick s.live).live = (ackTick s).live := by
  unfold ackTick
  dsimp only
  rw [State.live_ah, State.live_level, State.live_acnt, State.live_polls, State.live_ch]
  split_ifs
  · exact State.live_eq rfl s.live_chans_live (by simp [State.liveRaw]) nofun
  · exact State.live_eq rfl s.live_chans_live s.live_liveRaw State.live_entryRegs
  · exact State.live_eq rfl s.live_chans_live rfl nofun
  · exact State.live_eq rfl s.live_chans_live s.live_liveRaw State.live_entryRegs

theorem wakeAll_live (s : State) : (wakeAll s.live).live = (wakeAll s).live := by
  have hx : (enterAck (wakeHigh s.live)).live = (enterAck (wakeHigh s)).live := by
    rw [← enterAck_live (wakeHigh s.live), wakeHigh_live, enterAck_live]
  exact congrArg (fun u : State => { u with now := s.now + (Config.wakeLowTicks + 1 - s.tmr) }) hx

theorem storeBit_of_lt {s : State} (h : s.idx.val < 39) : storeBit s =
    { s with raw := s.raw.set s.idx (classify s.cnt), idx := s.idx + 1, cph := .low, cnt := 1 } := if_pos h

theorem storeBit_of_last {s : State} (h : ¬ s.idx.val < 39) : storeBit s =
    { s with raw := s.raw.set s.idx (classify s.cnt), cph := .done, capOk := true, seq := .decode } := if_neg h

theorem State.live_raw_of_lt {s : State} (hs : s.seq = .capture) {i : Nat} (hi : i < s.idx.val) :
    s.live.raw[i] = s.raw[i] := by
  have hlt : (⟨i, by omega⟩ : Fin 40) < s.idx := hi
  simp [State.liveRaw_of_capture hs, hlt]

theorem State.liveRaw_congr {x y : State} (hx : x.seq = .capture) (hy : y.seq = .capture) (hidx : x.idx = y.idx)
    (hraw : ∀ (i : Nat) (hi : i < y.idx.val), x.raw[i] = y.raw[i]) : x.liveRaw = y.liveRaw := by
  rw [State.liveRaw_of_capture hx, State.liveRaw_of_capture hy, hidx]
  congr 1
  funext i
  split
  next hi => exact hraw i.val hi
  · rfl

/-- Storing a bit on the view: up to that bit, `RAW` is as it is. -/
theorem State.live_raw_set {s : State} (hs : s.seq = .capture) (v : Level) {i : Nat} (hi : i ≤ s.idx.val) :
    (s.live.raw.set s.idx v)[i] = (s.raw.set s.idx v)[i] := by
  rcases hi.eq_or_lt with rfl | hlt
  · simp
  · rw [Vector.getElem_set_ne _ _ (by omega), Vector.getElem_set_ne _ _ (by omega), State.live_raw_of_lt hs hlt]

/-- The bit under way becomes visible, the last as the others. -/
theorem storeBit_live {s : State} (hs : s.seq = .capture) : (storeBit s.live).live = (storeBit s).live := by
  by_cases hidx : s.idx.val < 39
  · rw [storeBit_of_lt (s := s.live) hidx, storeBit_of_lt hidx]
    have hv : (s.idx + 1).val = s.idx.val + 1 := Fin.val_add_one_of_lt (Fin.lt_def.mpr hidx)
    exact State.live_eq rfl s.live_chans_live (State.liveRaw_congr hs hs rfl fun i hi =>
      State.live_raw_set hs _ (Nat.le_of_lt_succ (hi.trans_eq hv))) (by simp [hs])
  · rw [storeBit_of_last (s := s.live) hidx, storeBit_of_last hidx]
    refine State.live_eq rfl s.live_chans_live ?_ (by simp)
    exact Vector.ext fun i hi => State.live_raw_set hs _ (by omega)

theorem countHigh_live (h : Nat) (s : State) : (countHigh h s.live).live = (countHigh h s).live := by
  unfold countHigh
  rw [State.live_cfg, State.live_ch, State.live_idx]
  split_ifs
  · exact State.live_eq rfl s.live_chans_live rfl nofun
  · exact State.live_eq rfl s.live_chans_live s.live_liveRaw State.live_entryRegs

theorem captureRow_live {s : State} (hs : s.seq = .capture) (v : Level) :
    (captureRow v s.live).live = (captureRow v s).live := by
  unfold captureRow
  rw [State.live_cph, State.live_cnt]
  cases hc : s.cph <;> dsimp only
  case pre =>
    split_ifs
    · exact State.live_eq rfl s.live_chans_live s.live_liveRaw State.live_entryRegs
    · exact State.live_eq rfl s.live_chans_live s.live_liveRaw State.live_entryRegs
  case low =>
    split_ifs
    · exact countHigh_live 1 s
    · exact State.live_eq rfl s.live_chans_live s.live_liveRaw State.live_entryRegs
    · exact State.live_eq rfl s.live_chans_live s.live_liveRaw State.live_entryRegs
  case high =>
    split_ifs
    · exact countHigh_live _ s
    · exact storeBit_live hs
  all_goals exact s.live_live

theorem captureTick_live {s : State} (hs : s.seq = .capture) : (captureTick s.live).live = (captureTick s).live :=
  captureRow_live (s := s.sampled) hs s.level

/-- DECODE sees the whole of `RAW`, and writes every register it reads later. -/
theorem decodeStep_live {s : State} (hs : s.seq = .decode) : (decodeStep s.live).live = (decodeStep s).live := by
  have hf : decodeFrame s.live = { decodeFrame s with chans := s.live.chans } := by
    unfold decodeFrame
    rw [State.live_raw, State.liveRaw_of_decode hs]
    simp [State.live, State.liveRaw_of_decode hs]
  unfold decodeStep
  rw [hf]
  dsimp only
  split_ifs
  · exact State.live_eq rfl s.live_chans_live rfl fun _ => ⟨rfl, rfl, rfl⟩
  · exact State.live_eq rfl s.live_chans_live rfl nofun

theorem publishStep_live {s : State} {k : Channel} (hs : s.seq = .publish) (hk : s.chans[s.ch]? = some k) (hw : k.wf) :
    (publishStep k.live s.live).live = (publishStep k s).live := by
  unfold publishStep
  rw [Channel.live_full, State.live_entry hs]
  split_ifs with hf
  · exact State.live_eq rfl s.live_chans_live rfl nofun
  · refine State.live_eq rfl (map_live_modify fun k' hk' => ?_) rfl nofun
    obtain rfl : k = k' := Option.some.inj (hk.symm.trans hk')
    exact Channel.push_live hw (Bool.eq_false_iff.mpr hf) _

theorem sleepTick_live (s : State) : (sleepTick s.live).live = (sleepTick s).live := by
  unfold sleepTick
  rw [State.live_sleepDuration, State.live_tmr]
  split_ifs
  · exact State.live_eq rfl s.live_chans_live rfl nofun
  · exact State.live_eq rfl s.live_chans_live s.live_liveRaw State.live_entryRegs

theorem sleepAll_live (s : State) : (sleepAll s.live).live = (sleepAll s).live :=
  State.live_eq rfl s.live_chans_live rfl nofun

theorem popChan_live {s : State} {c : Nat} (he : ∀ k, s.chans[c]? = some k → k.empty = false) :
    (s.live.onChan c fun k => k.pop).live = (s.onChan c fun k => k.pop).live :=
  State.live_eq rfl (map_live_modify fun k hk => Channel.pop_live (he k hk)) s.live_liveRaw State.live_entryRegs

/-! ## Runs of operations on states that look alike -/

theorem seq_of_live_eq {s s' : State} (h : s'.live = s.live) : s'.seq = s.seq := (congrArg State.seq h :)

theorem ch_of_live_eq {s s' : State} (h : s'.live = s.live) : s'.ch = s.ch := (congrArg State.ch h :)

/-- An operation that commutes with the view takes states that look alike to states that look alike. -/
theorem live_congr {op : State → State} {P : State → Prop} (hop : ∀ s, P s → (op s.live).live = (op s).live) {s s' : State}
    (h : s'.live = s.live) (hs' : P s') (hs : P s) : (op s').live = (op s).live := by
  rw [← hop s' hs', h, hop s hs]

theorem whilePhase_live {p : Phase} {op : State → State} (hop : ∀ s, s.seq = p → (op s.live).live = (op s).live) (n : Nat)
    {s s' : State} (h : s'.live = s.live) : (whilePhase p op n s').live = (whilePhase p op n s).live := by
  induction n generalizing s s' with
  | zero => exact h
  | succ n ih =>
    have hseq : s'.seq = s.seq := seq_of_live_eq h
    unfold whilePhase
    rw [hseq]
    split_ifs with hp
    · exact ih (live_congr hop h (hseq.trans hp) hp)
    · exact h

theorem chan_of_live_eq {s s' : State} (h : s'.live = s.live) {c : Nat} {k : Channel} (hk : s.chans[c]? = some k) :
    ∃ k', s'.chans[c]? = some k' ∧ k'.live = k.live := by
  have hl := State.live_chan hk
  rw [← h] at hl
  obtain ⟨k', hk', e⟩ := State.live_chan_iff.mp hl
  exact ⟨k', hk', e.symm⟩

theorem publishStep_congr {s s' : State} {k k' : Channel} (h : s'.live = s.live) (hs : s.seq = .publish)
    (hk : s.chans[s.ch]? = some k) (hk' : s'.chans[s.ch]? = some k') (hl : k'.live = k.live) (hw : k.wf) :
    (publishStep k' s').live = (publishStep k s).live := by
  have hseq : s'.seq = .publish := (seq_of_live_eq h).trans hs
  have hch : s'.ch = s.ch := ch_of_live_eq h
  have hw' : k'.wf := Channel.live_wf k' |>.mp (hl ▸ hw)
  rw [← publishStep_live hseq (hch ▸ hk') hw', h, hl, publishStep_live hs hk hw]

theorem popChan_congr {s s' : State} (h : s'.live = s.live) {c : Nat} (he : ∀ k, s.chans[c]? = some k → k.empty = false) :
    (s'.onChan c fun k => k.pop).live = (s.onChan c fun k => k.pop).live := by
  refine live_congr (op := fun s => s.onChan c fun k => k.pop) (fun _ => popChan_live) h (fun k' hk' => ?_) he
  obtain ⟨k, hk, hl⟩ := chan_of_live_eq h.symm hk'
  exact (congrArg Channel.empty hl).symm.trans (he k hk)

/-- TRY_READ on states that look alike. -/
theorem tryReadFrom_live {pre post post' t : State} {c : Nat} (h : tryReadFrom pre post c = .next t)
    (hp : post'.live = post.live)
    (he : ∀ k, pre.chans[c]? = some k → k.empty = false → ∀ k', post.chans[c]? = some k' → k'.empty = false) :
    ∃ t', tryReadFrom pre.live post' c = .next t' ∧ t'.live = t.live := by
  obtain ⟨k, hk, rfl⟩ := tryReadFrom_eq_next.mp h
  refine ⟨_, tryReadFrom_eq_next.mpr ⟨k.live, State.live_chan hk, rfl⟩, ?_⟩
  rw [Channel.live_empty, Channel.head_live]
  refine congrArg (fun u : State => { u with rdPort := some k.head }) (?_ : State.live _ = State.live _)
  split_ifs with hempty
  · exact hp
  · exact popChan_congr hp (he k hk (Bool.eq_false_iff.mpr hempty))

/-! ## CYCLE on the view -/

theorem cycleTail_live {s s' : State} (hi : s.Inv) (hs : s.underWay) (h : s'.live = s.live) :
    (cycleTail s').live = (cycleTail s).live := by
  have sleep {u u' : State} (hl : u'.live = u.live) : (sleepAll u').live = (sleepAll u).live :=
    live_congr (P := fun _ => True) (fun s _ => sleepAll_live s) hl trivial trivial
  have fromSleep {u u' : State} (hl : u'.live = u.live) (hz : u.seq = .sleep) :
      (cycleTail u').live = (cycleTail u).live := by
    rw [cycleTail_of_sleep hz, cycleTail_of_sleep ((seq_of_live_eq hl).trans hz)]
    exact sleep hl
  have fromPublish {u u' : State} (hu : u.Inv) (hl : u'.live = u.live) (hp : u.seq = .publish) :
      (cycleTail u').live = (cycleTail u).live := by
    obtain ⟨k, hk⟩ := hu.exists_current
    obtain ⟨k', hk', hlk⟩ := chan_of_live_eq hl hk
    have hch : u'.ch = u.ch := ch_of_live_eq hl
    rw [cycleTail_of_publish hp hk, cycleTail_of_publish ((seq_of_live_eq hl).trans hp) (hch ▸ hk')]
    exact sleep (publishStep_congr hl hp hk hk' hlk (hu.queues _ k hk))
  have hseq : s'.seq = s.seq := seq_of_live_eq h
  rcases hs with hs | hs | hs | hs
  · rwa [cycleTail_of_capture hs, cycleTail_of_capture (hseq.trans hs)]
  · rw [cycleTail_of_decode hs, cycleTail_of_decode (hseq.trans hs)]
    have hd : (decodeStep s').live = (decodeStep s).live := live_congr (fun _ => decodeStep_live) h (hseq.trans hs) hs
    exact (decodeStep_seq s).elim (fromPublish (decodeStep_inv hi hs) hd) (fromSleep hd)
  · exact fromPublish hi h hs
  · exact fromSleep h hs

theorem cycleRest_live {s s' : State} (hi : s.Inv) (hs : s.underWay) (h : s'.live = s.live) :
    (cycleRest s').live = (cycleRest s).live := by
  have hmax : captureTicksMax s' = captureTicksMax s := (congrArg captureTicksMax h :)
  obtain ⟨hinv, hunder, -⟩ := captureAll_inv hi hs _ rfl
  unfold cycleRest
  rw [hmax]
  exact cycleTail_live hinv hunder (whilePhase_live (fun _ => captureTick_live) _ h)

theorem cyclePass_live {s : State} (hi : s.Inv) (hs : s.seq = .idle) : (cyclePass s.live).live = (cyclePass s).live := by
  obtain ⟨hinv, hunder⟩ := ackAll_inv (wakeAll_inv (idleTick_inv hi hs) rfl) rfl
  have hwake : (wakeAll (idleTick s.live)).live = (wakeAll (idleTick s)).live :=
    live_congr (P := fun _ => True) (fun s _ => wakeAll_live s) (idleTick_live s) trivial trivial
  unfold cyclePass
  exact cycleRest_live hinv hunder (whilePhase_live (fun u _ => ackTick_live u) _ hwake)

theorem markPass_live {s s' : State} (h : s'.live = s.live) : (markPass s').live = (markPass s).live :=
  (congrArg markPass h :)

/-! ## A step reads no register that its cycle has not written -/

theorem exec_live {i : Instr} {s t : State} (hi : s.Inv) (h : exec i s = .next t) :
    ∃ t', exec i s.live = .next t' ∧ t'.live = t.live := by
  cases i with
  | idle =>
    obtain ⟨hs, ⟨k, hk⟩, rfl⟩ := execIdle_eq_next.mp h
    exact ⟨_, execIdle_eq_next.mpr ⟨hs, ⟨k.live, State.live_chan hk⟩, rfl⟩, idleTick_live s⟩
  | wake =>
    obtain ⟨hs, ⟨k, hk⟩, rfl⟩ := execWake_eq_next.mp h
    exact ⟨_, execWake_eq_next.mpr ⟨hs, ⟨k.live, State.live_chan hk⟩, rfl⟩, wakeTick_live s⟩
  | ack =>
    obtain ⟨hs, hin, rfl⟩ := execAck_eq_next.mp h
    exact ⟨_, execAck_eq_next.mpr ⟨hs, State.inputReady_live hin, rfl⟩, ackTick_live s⟩
  | capture =>
    obtain ⟨hs, hin, rfl⟩ := execCapture_eq_next.mp h
    exact ⟨_, execCapture_eq_next.mpr ⟨hs, State.inputReady_live hin, rfl⟩, captureTick_live hs⟩
  | decode =>
    obtain ⟨hs, hc, rfl⟩ := execDecode_eq_next.mp h
    exact ⟨_, execDecode_eq_next.mpr ⟨hs, hc, rfl⟩, decodeStep_live hs⟩
  | publish =>
    obtain ⟨hs, hc, k, hk, rfl⟩ := execPublish_eq_next.mp h
    exact ⟨_, execPublish_eq_next.mpr ⟨hs, hc, k.live, State.live_chan hk, rfl⟩, publishStep_live hs hk (hi.queues _ k hk)⟩
  | sleep =>
    obtain ⟨hs, rfl⟩ := execSleep_eq_next.mp h
    exact ⟨_, execSleep_eq_next.mpr ⟨hs, rfl⟩, sleepTick_live s⟩
  | tryRead c =>
    exact tryReadFrom_live h s.live_live fun _ hk he _ hk' => Option.some.inj (hk.symm.trans hk') ▸ he
  | cycle =>
    obtain ⟨⟨k, hk⟩, ⟨hs, rfl⟩ | ⟨hs, hc, rfl⟩⟩ := execCycle_eq_next.mp h
    · exact ⟨_, execCycle_eq_next.mpr ⟨⟨k.live, State.live_chan hk⟩, .inl ⟨hs, rfl⟩⟩, markPass_live (cyclePass_live hi hs)⟩
    · exact ⟨_, execCycle_eq_next.mpr ⟨⟨k.live, State.live_chan hk⟩, .inr ⟨hs, hc, rfl⟩⟩,
        markPass_live (cycleRest_live hi (hi.pass hc).2 s.live_live)⟩

theorem runTurn_live {τ : Turn} {s t : State} (hi : s.Inv) (h : runTurn τ s = .next t) :
    ∃ t', runTurn τ s.live = .next t' ∧ t'.live = t.live := by
  cases τ with
  | sequencer =>
    rw [runTurn_sequencer] at h ⊢
    exact exec_live hi h
  | consumer c =>
    rw [runTurn_consumer] at h ⊢
    exact exec_live hi h
  | together c =>
    obtain ⟨u, hu, ht⟩ := runTogether_eq_next.mp h
    obtain ⟨u', hu', hl⟩ := exec_live hi hu
    obtain ⟨t', ht', hlt⟩ := tryReadFrom_live ht hl fun k hk he k' hk' => exec_seq_not_empty hu hk he hk'
    exact ⟨t', runTogether_eq_next.mpr ⟨u', hu', ht'⟩, hlt⟩
  | issue w =>
    obtain ⟨i, hw, he⟩ := runWord_eq_next.mp h
    obtain ⟨t', ht', hl⟩ := exec_live hi he
    exact ⟨t', runWord_eq_next.mpr ⟨i, hw, ht'⟩, hl⟩
  | reset =>
    cases h
    exact ⟨_, rfl, rfl⟩

/-- Settles O53: by the turn, and the operation it runs. -/
theorem onlyWrittenRegistersAreRead : Obligations.OnlyWrittenRegistersAreRead :=
  fun _ _ hi h => runTurn_live hi.begin h

end Sys2Proof.Machine
end

section
/-! SUPPORT. Proofs of the family `20_memory`: the views of the stream, the traffic of a queue, a TRY_READ beside a step of the
sequencer, and that no step of an agent stops. -/

namespace Sys2Proof.Machine

/-! ## The views of the stream (R53) -/

theorem toNat_byte_append (a b : Byte) : (a ++ b).toNat = 256 * a.toNat + b.toNat := by
  rw [BitVec.toNat_append, ← Nat.shiftLeft_add_eq_or_of_lt b.isLt, Nat.shiftLeft_eq, Nat.mul_comm]

/-- The tenths of humidity are the first two bytes side by side (R53, R116). -/
theorem humidityTenths_eq_append (b : Vector Byte 5) : humidityTenths b = b[0] ++ b[1] := by
  apply BitVec.eq_of_toNat_eq
  rw [humidityTenths, BitVec.toNat_ofNat, toNat_byte_append]
  exact Nat.mod_eq_of_lt (by omega)

/-- The tenths of temperature are the third and fourth byte side by side without the sign bit (R53, R113, R116). -/
theorem temperatureTenths_eq_append (b : Vector Byte 5) :
    temperatureTenths (correctedHigh (b[2].getLsbD 7) b[2]) b = (b[2] ++ b[3]).setWidth 15 := by
  apply BitVec.eq_of_toNat_eq
  rw [temperatureTenths, BitVec.toNat_ofNat, BitVec.toNat_setWidth, toNat_byte_append, correctedHigh_toNat]
  omega

/-- Two neighbouring bytes are sixteen neighbouring bits of the frame (R51, R53). -/
theorem getLsbD_byteAt_append (raw : RawBits) {k i : Nat} (hk : k < 4) (hi : i < 16) :
    (byteAt raw k ++ byteAt raw (k + 1)).getLsbD i = (frameOf raw).getLsbD (8 * (3 - k) + i) := by
  rw [getLsbD_frameOf _ (by omega), BitVec.getLsbD_append]
  split
  next h =>
    rw [getLsbD_byteAt _ _ h]
    congr 1
    omega
  · rw [getLsbD_byteAt _ _ (by omega)]
    congr 1
    omega

theorem humidityTenths_bytesOf (raw : RawBits) : humidityTenths (bytesOf raw) = (frameOf raw).extractLsb' 24 16 := by
  rw [humidityTenths_eq_append]
  apply BitVec.eq_of_getLsbD_eq
  intro i hi
  rw [BitVec.getLsbD_extractLsb', decide_eq_true hi, Bool.true_and]
  exact getLsbD_byteAt_append raw (by decide : 0 < 4) hi

theorem signOf_eq_frame (raw : RawBits) : signOf raw = (frameOf raw).getLsbD 23 := by
  rw [getLsbD_frameOf _ (by decide), rawAt_eq _ (by decide)]
  rfl

theorem temperatureTenths_bytesOf (raw : RawBits) :
    temperatureTenths (correctedHigh (signOf raw) (bytesOf raw)[2]) (bytesOf raw) = (frameOf raw).extractLsb' 8 15 := by
  rw [signOf_eq, temperatureTenths_eq_append]
  apply BitVec.eq_of_getLsbD_eq
  intro i hi
  rw [BitVec.getLsbD_setWidth, BitVec.getLsbD_extractLsb', decide_eq_true hi, Bool.true_and, Bool.true_and]
  exact getLsbD_byteAt_append raw (by decide : 2 < 4) (by omega)

theorem bytesOf_four (raw : RawBits) : (bytesOf raw)[4] = (frameOf raw).extractLsb' 0 8 := by
  apply BitVec.eq_of_getLsbD_eq
  intro i hi
  rw [BitVec.getLsbD_extractLsb', getLsbD_frameOf _ (by omega), decide_eq_true hi, Bool.true_and]
  refine (getLsbD_byteAt raw 4 hi).trans ?_
  congr 1
  omega

/-- The three fields of an entry, cut out of a frame, lie side by side in it (R53, R76). -/
theorem entryOf_views (f : Frame) :
    entryOf (f.extractLsb' 24 16) (f.getLsbD 23) (f.extractLsb' 8 15) = f.extractLsb' 8 32 := by
  apply BitVec.eq_of_getLsbD_eq
  intro i hi
  rw [entryOf, BitVec.getLsbD_append, BitVec.getLsbD_append]
  simp only [BitVec.getLsbD_extractLsb', BitVec.getLsbD_ofBool]
  split
  next h => simp [h, hi]
  split
  next h =>
    obtain rfl : i = 15 := by omega
    simp
  next h =>
    have e : 24 + (i - 15 - 1) = 8 + i := by omega
    simp [e, hi]
    omega

/-- What DECODE writes into the decoder's registers, whatever the checksum says (R114). -/
theorem decodeStep_registers (s : State) :
    (decodeStep s).b = bytesOf s.raw ∧ (decodeStep s).sign = signOf s.raw ∧
      (decodeStep s).h10 = humidityTenths (bytesOf s.raw) ∧
      (decodeStep s).tmag = temperatureTenths (correctedHigh (signOf s.raw) (bytesOf s.raw)[2]) (bytesOf s.raw) := by
  unfold decodeStep
  dsimp only
  split <;> exact ⟨rfl, rfl, rfl, rfl⟩

/-- Settles O27: each register as a view of the frame, and the entry from the three it is built of. -/
theorem entryIsTheFirstFourBytes : Obligations.EntryIsTheFirstFourBytes := by
  intro s hs hc
  obtain ⟨hb, hsign, hh10, htmag⟩ := decodeStep_registers s
  rw [humidityTenths_bytesOf] at hh10
  rw [signOf_eq_frame] at hsign
  rw [temperatureTenths_bytesOf] at htmag
  refine ⟨_, execDecode_eq_next.mpr ⟨hs, hc, rfl⟩, hh10, hsign, htmag, ?_, ?_⟩
  · simp only [hb, bytesOf_four]
  · rw [State.entry, hh10, hsign, htmag, entryOf_views]

/-! ## No step of an agent stops (R61, R63) -/

theorem State.Inv.exists_chan {s : State} (hi : s.Inv) {c : Nat} (hc : c < s.cfg.nch) : ∃ k, s.chans[c]? = some k :=
  ⟨_, List.getElem?_eq_getElem (hc.trans_eq hi.channels.symm)⟩

theorem State.Inv.inputReady {s : State} (hi : s.Inv) (hs : s.seq ≠ .wake) : s.inputReady := by
  obtain ⟨k, hk⟩ := hi.exists_current
  exact ⟨k, hk, (hi.atRest hs hk).input⟩

theorem State.Inv.capOk_of_decode {s : State} (hi : s.Inv) (hs : s.seq = .decode) : s.capOk = true := by
  have hf := hi.flags
  simp only [State.flagsMatch, hs] at hf
  exact hf.2.1

theorem State.Inv.csumOk_of_publish {s : State} (hi : s.Inv) (hs : s.seq = .publish) : s.csumOk = true := by
  have hf := hi.flags
  simp only [State.flagsMatch, hs] at hf
  exact hf.2.2.1

/-- The preconditions of the operation that `SEQ` names are met. -/
theorem State.Inv.exec_seq_completes {s : State} (hi : s.Inv) : ∃ t, exec s.seq.instr s = .next t := by
  obtain ⟨k, hk⟩ := hi.exists_current
  cases hs : s.seq with
  | idle => exact ⟨_, execIdle_eq_next.mpr ⟨hs, ⟨k, hk⟩, rfl⟩⟩
  | wake => exact ⟨_, execWake_eq_next.mpr ⟨hs, ⟨k, hk⟩, rfl⟩⟩
  | ack => exact ⟨_, execAck_eq_next.mpr ⟨hs, hi.inputReady (by simp [hs]), rfl⟩⟩
  | capture => exact ⟨_, execCapture_eq_next.mpr ⟨hs, hi.inputReady (by simp [hs]), rfl⟩⟩
  | decode => exact ⟨_, execDecode_eq_next.mpr ⟨hs, hi.capOk_of_decode hs, rfl⟩⟩
  | publish => exact ⟨_, execPublish_eq_next.mpr ⟨hs, hi.csumOk_of_publish hs, k, hk, rfl⟩⟩
  | sleep => exact ⟨_, execSleep_eq_next.mpr ⟨hs, rfl⟩⟩

theorem tryReadFrom_completes {pre : State} {c : Nat} (h : ∃ k, pre.chans[c]? = some k) (post : State) :
    ∃ t, tryReadFrom pre post c = .next t := by
  obtain ⟨k, hk⟩ := h
  exact ⟨_, tryReadFrom_eq_next.mpr ⟨k, hk, rfl⟩⟩

theorem State.Inv.runTurn_completes {s : State} (hi : s.Inv) {τ : Turn} (hl : τ.legal s.cfg) :
    ∃ t, runTurn τ s = .next t := by
  cases τ with
  | sequencer =>
    rw [runTurn_sequencer]
    exact hi.exec_seq_completes
  | consumer c =>
    rw [runTurn_consumer]
    exact tryReadFrom_completes (hi.exists_chan hl) s
  | together c =>
    obtain ⟨u, hu⟩ := hi.exec_seq_completes
    obtain ⟨t, ht⟩ := tryReadFrom_completes (hi.exists_chan hl) u
    exact ⟨t, runTogether_eq_next.mpr ⟨u, hu, ht⟩⟩
  | issue w => exact hl.elim
  | reset => exact ⟨_, rfl⟩

/-- Settles O46: a scripted turn runs in a state of the invariant. -/
theorem nothingStopsTheBlock : Obligations.NothingStopsTheBlock := by
  intro s τ rest hi hτ hl
  rw [step_of_scripted hτ]
  exact (hi.of_inputs ..).runTurn_completes hl


/-! ## What a TRY_READ leaves (R133, R135) -/

/-- The registers of a channel after a TRY_READ that saw the queue `q` (R133): the head is gone, where there was one. -/
def Channel.afterRead (q : List Entry) (k : Channel) : Channel :=
  match q with
  | [] => k
  | _ :: _ => k.pop

/-- The state `s` after a TRY_READ on channel `c` that saw the queue `q` (R133). -/
def State.afterRead (s : State) (c : Nat) (q : List Entry) : State :=
  { s.onChan c (Channel.afterRead q) with rdPort := some q.head? }

@[simp] theorem State.afterRead_seq (s : State) (c : Nat) (q : List Entry) : (s.afterRead c q).seq = s.seq := rfl
@[simp] theorem State.afterRead_ch (s : State) (c : Nat) (q : List Entry) : (s.afterRead c q).ch = s.ch := rfl
@[simp] theorem State.afterRead_tmr (s : State) (c : Nat) (q : List Entry) : (s.afterRead c q).tmr = s.tmr := rfl
@[simp] theorem State.afterRead_ah (s : State) (c : Nat) (q : List Entry) : (s.afterRead c q).ah = s.ah := rfl
@[simp] theorem State.afterRead_polls (s : State) (c : Nat) (q : List Entry) : (s.afterRead c q).polls = s.polls := rfl
@[simp] theorem State.afterRead_acnt (s : State) (c : Nat) (q : List Entry) : (s.afterRead c q).acnt = s.acnt := rfl
@[simp] theorem State.afterRead_cph (s : State) (c : Nat) (q : List Entry) : (s.afterRead c q).cph = s.cph := rfl
@[simp] theorem State.afterRead_cnt (s : State) (c : Nat) (q : List Entry) : (s.afterRead c q).cnt = s.cnt := rfl
@[simp] theorem State.afterRead_idx (s : State) (c : Nat) (q : List Entry) : (s.afterRead c q).idx = s.idx := rfl
@[simp] theorem State.afterRead_csumOk (s : State) (c : Nat) (q : List Entry) : (s.afterRead c q).csumOk = s.csumOk := rfl
@[simp] theorem State.afterRead_acc (s : State) (c : Nat) (q : List Entry) : (s.afterRead c q).acc = s.acc := rfl
@[simp] theorem State.afterRead_cfg (s : State) (c : Nat) (q : List Entry) : (s.afterRead c q).cfg = s.cfg := rfl
@[simp] theorem State.afterRead_level (s : State) (c : Nat) (q : List Entry) : (s.afterRead c q).level = s.level := rfl
@[simp] theorem State.sleepDuration_afterRead (s : State) (c : Nat) (q : List Entry) :
    sleepDuration (s.afterRead c q) = sleepDuration s := rfl
@[simp] theorem State.afterRead_rdPort (s : State) (c : Nat) (q : List Entry) :
    (s.afterRead c q).rdPort = some q.head? := rfl

theorem Channel.length_queue_le (k : Channel) : k.queue.length ≤ 2 :=
  k.length_queue ▸ Nat.le_of_lt_succ k.count.isLt

theorem Channel.full_eq_false_iff (k : Channel) : k.full = false ↔ k.queue.length < 2 := by
  rw [← Bool.not_eq_true, k.full_iff]
  have := k.length_queue_le
  omega

theorem State.queueOf_of {s : State} {c : Nat} {k : Channel} (hk : s.chans[c]? = some k) : s.queueOf c = k.queue := by
  simp only [State.queueOf, hk]

/-- TRY_READ looks at the state before its tick through the abstract queue alone (R59). -/
theorem tryReadFrom_of {pre : State} {c : Nat} {k : Channel} (hk : pre.chans[c]? = some k) (post : State) :
    tryReadFrom pre post c = .next (post.afterRead c k.queue) := by
  refine tryReadFrom_eq_next.mpr ⟨k, hk, ?_⟩
  rw [State.afterRead, ← k.head_eq]
  cases he : k.empty with
  | true =>
    rw [k.empty_iff.mp he]
    exact congrArg (fun l => { post with chans := l, rdPort := some k.head }) (List.modify_id ..)
  | false =>
    rw [Channel.queue_eq_head_cons he]
    rfl

theorem execTryRead_of {s : State} {c : Nat} {k : Channel} (hk : s.chans[c]? = some k) :
    exec (.tryRead c) s = .next (s.afterRead c k.queue) := tryReadFrom_of hk s

/-- An entry appended behind the head is not seen. -/
theorem State.afterRead_append {q new : List Entry} (h : q = [] → new = []) (s : State) (c : Nat) :
    s.afterRead c (q ++ new) = s.afterRead c q := by
  cases q with
  | nil => rw [h rfl, List.append_nil]
  | cons e q => rfl

/-- What was seen as the head of a queue, and what is left of that queue, are the queue. -/
theorem Channel.queue_afterRead {k : Channel} {q new : List Entry} (h : k.queue = q ++ new) :
    k.queue = q.head?.toList ++ (k.afterRead q).queue := by
  cases q with
  | nil => rfl
  | cons e q =>
    have he : k.empty = false := Bool.eq_false_iff.mpr fun he => by simp [k.empty_iff.mp he] at h
    have hq := Channel.queue_eq_head_cons he
    obtain ⟨rfl, -⟩ := List.cons.inj (hq.symm.trans h)
    exact hq

/-- A read does not fill a queue. -/
theorem Channel.afterRead_full {k : Channel} (h : k.full = false) : (k.afterRead k.queue).full = false := by
  rw [k.full_eq_false_iff] at h
  rw [Channel.full_eq_false_iff]
  have hlen := congrArg List.length (Channel.queue_afterRead (List.append_nil k.queue).symm)
  rw [List.length_append] at hlen
  omega

theorem State.onChan_queueOf_self {s : State} {c : Nat} {k : Channel} (hk : s.chans[c]? = some k) (f : Channel → Channel) :
    (s.onChan c f).queueOf c = (f k).queue :=
  State.queueOf_of (getElem?_modify_eq_some.mpr ⟨k, hk, (if_pos rfl).symm⟩)

theorem State.onChan_queueOf_ne {c d : Nat} (h : c ≠ d) (s : State) (f : Channel → Channel) :
    (s.onChan c f).queueOf d = s.queueOf d := by
  simp [State.queueOf, h]

theorem State.queueOf_afterRead {s : State} {c : Nat} {q new : List Entry} (h : s.queueOf c = q ++ new) :
    s.queueOf c = q.head?.toList ++ (s.afterRead c q).queueOf c := by
  cases hk : s.chans[c]? with
  | none =>
    have hs : s.queueOf c = [] := by simp only [State.queueOf, hk]
    obtain ⟨rfl, -⟩ := List.append_eq_nil_iff.mp (h.symm.trans hs)
    simp [State.queueOf, State.afterRead, hk]
  | some k =>
    have hq : (s.afterRead c q).queueOf c = (k.afterRead q).queue := State.onChan_queueOf_self hk _
    rw [State.queueOf_of hk] at h ⊢
    rw [hq]
    exact Channel.queue_afterRead h

theorem State.queueOf_afterRead_ne {c d : Nat} (h : c ≠ d) (s : State) (q : List Entry) :
    (s.afterRead c q).queueOf d = s.queueOf d := State.onChan_queueOf_ne h s _

/-! ## The traffic of a queue (R58, R136) -/

/-- The entry that a step of the sequencer from `s` to `u` appends to `Q[c]` (R131). -/
def published (c : Nat) (s u : State) : List Entry := if s.seq = .publish ∧ s.ch = c ∧ u.acc then [s.entry] else []

theorem published_of_not {c : Nat} {s : State} (h : ¬ (s.seq = .publish ∧ s.ch = c)) (u : State) : published c s u = [] :=
  if_neg fun ⟨hs, hc, _⟩ => h ⟨hs, hc⟩

theorem publishStep_of_full {k : Channel} (h : k.full = true) (s : State) :
    publishStep k s = enterSleep { s with acc := false } := if_pos h

theorem publishStep_of_room {k : Channel} (h : k.full = false) (s : State) :
    publishStep k s = enterSleep { s.onChan s.ch fun k => k.push s.entry with acc := true } := if_neg (by simp [h])

theorem publishStep_acc (k : Channel) (s : State) : (publishStep k s).acc = !k.full := by
  unfold publishStep
  cases k.full <;> rfl

/-- PUBLISH appends its entry where the queue has room, and else leaves it as it is (R131, R132). -/
theorem publishStep_queueOf {s : State} {k : Channel} (hs : s.seq = .publish) (hk : s.chans[s.ch]? = some k) (hw : k.wf)
    (c : Nat) : (publishStep k s).queueOf c = s.queueOf c ++ published c s (publishStep k s) := by
  cases hf : k.full with
  | true =>
    rw [publishStep_of_full hf, published, if_neg (by simp), List.append_nil]
    rfl
  | false =>
    rw [publishStep_of_room hf]
    by_cases hc : s.ch = c
    · subst hc
      rw [published, if_pos ⟨hs, rfl, rfl⟩, State.queueOf_of hk, ← Channel.push_queue hw hf]
      exact State.onChan_queueOf_self hk _
    · rw [published_of_not (fun h => hc h.2), List.append_nil]
      exact State.onChan_queueOf_ne hc s _

theorem CurrentStep.queue_eq {s : State} {k k' : Channel} (h : CurrentStep s k k') (hs : s.seq ≠ .publish) :
    k'.queue = k.queue := by
  cases h with
  | same => rfl
  | line => rfl
  | push hp => exact absurd hp hs

/-- A step of the sequencer leaves every queue as it is, but for the entry it publishes. -/
theorem State.Inv.queueOf_exec_seq {s u : State} (hi : s.Inv) (h : exec s.seq.instr s = .next u) (c : Nat) :
    u.queueOf c = s.queueOf c ++ published c s u := by
  by_cases hs : s.seq = .publish
  · rw [hs] at h
    obtain ⟨-, -, k, hk, rfl⟩ := execPublish_eq_next.mp h
    exact publishStep_queueOf hs hk (hi.queues _ k hk) c
  · obtain ⟨f, hf, hcur⟩ := exec_seq_chans h
    have hu : u.queueOf c = (s.onChan s.ch f).queueOf c := by simp only [State.queueOf, hf, State.onChan_chans]
    rw [published_of_not (fun hp => hs hp.1), List.append_nil, hu]
    by_cases hc : s.ch = c
    · subst hc
      obtain ⟨k, hk⟩ := hi.exists_current
      rw [State.onChan_queueOf_self hk, (hcur k hk).queue_eq hs, State.queueOf_of hk]
    · exact State.onChan_queueOf_ne hc s f

theorem runTogether_eq {s u : State} {c : Nat} {k : Channel} (hu : exec s.seq.instr s = .next u) (hk : s.chans[c]? = some k) :
    runTogether c s = .next (u.afterRead c k.queue) :=
  runTogether_eq_next.mpr ⟨u, hu, tryReadFrom_of hk u⟩

theorem acceptedIn_of_sequencer {s : State} (h : s.sequencerSteps = true) (c : Nat) (t : State) :
    acceptedIn c s t = published c s t := by
  simp [acceptedIn, published, h]

theorem acceptedIn_of_not {s : State} (h : s.sequencerSteps = false) (c : Nat) (t : State) : acceptedIn c s t = [] := by
  simp [acceptedIn, h]

theorem returnedIn_of_no_read {s : State} (h : s.reads = none) (c : Nat) (t : State) : returnedIn c s t = [] := by
  simp [returnedIn, h]

theorem returnedIn_afterRead {s : State} {d : Nat} (h : s.reads = some d) (c : Nat) (u : State) (q : List Entry) :
    returnedIn c s (u.afterRead d q) = if d = c then q.head?.toList else [] := by
  cases q <;> simp [returnedIn, h]

/-- A TRY_READ that saw the queues of `s`, applied to a state `u` in which entries may have been appended to them: the entry it
returns, and what it leaves, are what was there and what was appended. -/
theorem queueOf_afterRead_of_appended {s u : State} {c : Nat} {new : List Entry} (hu : u.queueOf c = s.queueOf c ++ new)
    (d : Nat) : s.queueOf c ++ new =
      (if d = c then (s.queueOf d).head?.toList else []) ++ (u.afterRead d (s.queueOf d)).queueOf c := by
  rw [← hu]
  split
  next hd =>
    subst hd
    exact State.queueOf_afterRead hu
  next hd => exact (State.queueOf_afterRead_ne hd u _).symm

/-- The balance of `Q[c]` over one step of the sequencer or the consumer, or of both (R58). -/
theorem State.Inv.queueOf_step {s t : State} (hi : s.Inv) (hl : s.turn.legal s.cfg) (hr : s.turn ≠ .reset)
    (h : step s = .next t) (c : Nat) : s.queueOf c ++ acceptedIn c s t = returnedIn c s t ++ t.queueOf c := by
  rw [step] at h
  cases hτ : s.turn with
  | sequencer =>
    rw [hτ, runTurn_sequencer] at h
    rw [acceptedIn_of_sequencer (by simp only [State.sequencerSteps, hτ]),
      returnedIn_of_no_read (by simp only [State.reads, hτ]), List.nil_append]
    exact (hi.begin.queueOf_exec_seq h c).symm
  | consumer d =>
    rw [hτ] at hl
    obtain ⟨k, hk⟩ := hi.begin.exists_chan hl
    rw [hτ, runTurn_consumer, execTryRead_of hk, ← State.queueOf_of hk] at h
    obtain rfl := Host.Outcome.next.inj h
    rw [acceptedIn_of_not (by simp only [State.sequencerSteps, hτ]),
      returnedIn_afterRead (by simp only [State.reads, hτ])]
    exact queueOf_afterRead_of_appended (s := s.begin) (List.append_nil _).symm d
  | together d =>
    rw [hτ] at hl
    obtain ⟨k, hk⟩ := hi.begin.exists_chan hl
    obtain ⟨u, hu, ht⟩ := runTogether_eq_next.mp (hτ ▸ h : runTurn (.together d) s.begin = .next t)
    rw [tryReadFrom_of hk, ← State.queueOf_of hk] at ht
    obtain rfl := Host.Outcome.next.inj ht
    rw [acceptedIn_of_sequencer (by simp only [State.sequencerSteps, hτ]),
      returnedIn_afterRead (by simp only [State.reads, hτ])]
    exact queueOf_afterRead_of_appended (s := s.begin) (hi.begin.queueOf_exec_seq hu c) d
  | issue w => exact (hτ ▸ hl : (Turn.issue w).legal s.cfg).elim
  | reset => exact absurd hτ hr

/-- The sequencer uses up no turn and writes no parameter (R26). -/
theorem exec_seq_inputs {s t : State} (h : exec s.seq.instr s = .next t) : t.turns = s.turns ∧ t.cfg = s.cfg := by
  rcases exec_seq_cases h with ⟨-, -, rfl⟩ | ⟨-, -, rfl⟩ | ⟨-, -, rfl⟩ | ⟨-, -, rfl⟩ | ⟨-, -, rfl⟩ |
    ⟨-, -, k, -, rfl⟩ | ⟨-, rfl⟩
  · exact ⟨rfl, rfl⟩
  · rw [wakeTick_writes]; exact ⟨rfl, rfl⟩
  · rw [ackTick_writes]; exact ⟨rfl, rfl⟩
  · rw [captureTick_writes]; exact ⟨rfl, rfl⟩
  · rw [decodeStep_writes]; exact ⟨rfl, rfl⟩
  · rw [publishStep_writes]; exact ⟨rfl, rfl⟩
  · rw [sleepTick_writes]; exact ⟨rfl, rfl⟩

theorem tryReadFrom_inputs {pre post t : State} {c : Nat} (h : tryReadFrom pre post c = .next t) :
    t.turns = post.turns ∧ t.cfg = post.cfg := by
  obtain ⟨k, hk, -⟩ := tryReadFrom_eq_next.mp h
  obtain rfl := Host.Outcome.next.inj ((tryReadFrom_of hk post).symm.trans h)
  exact ⟨rfl, rfl⟩

/-- A step of the sequencer or the consumer uses up one scripted turn (log 9). -/
theorem step_inputs {s t : State} (hl : s.turn.legal s.cfg) (hr : s.turn ≠ .reset) (h : step s = .next t) :
    t.turns = s.turns.tail ∧ t.cfg = s.cfg := by
  rw [step] at h
  cases hτ : s.turn with
  | sequencer => exact exec_seq_inputs (runTurn_sequencer s.begin ▸ hτ ▸ h)
  | consumer d =>
    rw [hτ, runTurn_consumer] at h
    exact tryReadFrom_inputs h
  | together d =>
    obtain ⟨u, hu, ht⟩ := runTogether_eq_next.mp (hτ ▸ h : runTurn (.together d) s.begin = .next t)
    obtain ⟨hut, huc⟩ := exec_seq_inputs hu
    obtain ⟨htt, htc⟩ := tryReadFrom_inputs ht
    exact ⟨htt.trans hut, htc.trans huc⟩
  | issue w => exact (hτ ▸ hl : (Turn.issue w).legal s.cfg).elim
  | reset => exact absurd hτ hr

theorem State.scripted_turn {s : State} {n : Nat} (h : s.scripted (n + 1)) : s.turn.legal s.cfg ∧ s.turn ≠ .reset := by
  obtain ⟨hlen, hall⟩ := h
  cases ht : s.turns with
  | nil => simp [ht] at hlen
  | cons τ rest =>
    rw [State.turn_of_scripted ht]
    exact hall τ (by simp [ht])

theorem State.scripted_step {s t : State} {n : Nat} (h : s.scripted (n + 1)) (hs : step s = .next t) : t.scripted n := by
  obtain ⟨hl, hr⟩ := State.scripted_turn h
  obtain ⟨hturns, hcfg⟩ := step_inputs hl hr hs
  obtain ⟨hlen, hall⟩ := h
  rw [State.scripted, hturns, hcfg]
  refine ⟨by rw [List.length_tail]; omega, fun τ hτ => hall τ ?_⟩
  rw [← List.drop_one, List.take_drop] at hτ
  exact List.mem_of_mem_drop (Nat.add_comm 1 n ▸ hτ)

/-- A run begins with one step, and its log with what that step accepted and returned. -/
theorem queueLog_succ {c n : Nat} {s u : State} {ins outs : List Entry} (h : queueLog c (n + 1) s = some (ins, outs, u)) :
    ∃ t ins' outs', step s = .next t ∧ queueLog c n t = some (ins', outs', u) ∧
      ins = acceptedIn c s t ++ ins' ∧ outs = returnedIn c s t ++ outs' := by
  rw [queueLog] at h
  split at h
  next t hstep =>
    split at h
    next ins' outs' v hlog =>
      cases h
      exact ⟨t, ins', outs', hstep, hlog, rfl, rfl⟩
    next => cases h
  next => cases h
  next => cases h

/-- The balance of `Q[c]` over a run. -/
theorem State.Inv.queueOf_run {s t : State} {c n : Nat} {ins outs : List Entry} (hi : s.Inv) (hs : s.scripted n)
    (h : queueLog c n s = some (ins, outs, t)) : s.queueOf c ++ ins = outs ++ t.queueOf c := by
  induction n generalizing s ins outs with
  | zero =>
    cases h
    simp
  | succ n ih =>
    obtain ⟨u, ins', outs', hu, hlog, rfl, rfl⟩ := queueLog_succ h
    obtain ⟨hl, hr⟩ := State.scripted_turn hs
    calc s.queueOf c ++ (acceptedIn c s u ++ ins')
      _ = returnedIn c s u ++ (u.queueOf c ++ ins') := by
        rw [← List.append_assoc, hi.queueOf_step hl hr hu c, List.append_assoc]
      _ = (returnedIn c s u ++ outs') ++ t.queueOf c := by
        rw [ih (stepKeepsTheInvariant s u hi hu) (State.scripted_step hs hu) hlog, List.append_assoc]

theorem State.length_queueOf_le (s : State) (c : Nat) : (s.queueOf c).length ≤ 2 := by
  cases hk : s.chans[c]? with
  | none => simp [State.queueOf, hk]
  | some k =>
    rw [State.queueOf_of hk]
    exact k.length_queue_le

/-- Settles O34: the balance of a run, and the two slots of a queue. -/
theorem queueTrafficIsFifo : Obligations.QueueTrafficIsFifo :=
  fun _ t c _ _ _ hi hs h => ⟨hi.queueOf_run hs h, t.length_queueOf_le c⟩

/-! ## A TRY_READ beside a step of the sequencer (R59) -/

theorem modify_comm {f g : Channel → Channel} (h : ∀ k, f (g k) = g (f k)) (l : List Channel) (c d : Nat) :
    (l.modify c g).modify d f = (l.modify d f).modify c g := by
  by_cases hc : c = d
  · subst hc
    rw [List.modify_modify_eq, List.modify_modify_eq]
    exact congrArg (l.modify c) (funext h)
  · exact List.modify_modify_ne _ _ _ hc

/-- What it takes to be `y` after a TRY_READ. -/
theorem State.eq_afterRead {x y : State} {c : Nat} {q : List Entry}
    (hrest : x = { y with chans := x.chans, rdPort := x.rdPort }) (hchans : x.chans = y.chans.modify c (Channel.afterRead q))
    (hport : x.rdPort = some q.head?) : x = y.afterRead c q :=
  calc x = { y with chans := x.chans, rdPort := x.rdPort } := hrest
    _ = y.afterRead c q := by rw [hchans, hport]; rfl

theorem Channel.afterRead_write (q : List Entry) (k : Channel) (v : Level) :
    (k.write v).afterRead q = (k.afterRead q).write v := by
  cases q <;> rfl

theorem Channel.afterRead_setDirection (q : List Entry) (k : Channel) (output : Bool) :
    (k.setDirection output).afterRead q = (k.afterRead q).setDirection output := by
  cases q <;> rfl

theorem Channel.afterRead_push (q : List Entry) (k : Channel) (e : Entry) :
    (k.push e).afterRead q = (k.afterRead q).push e := by
  cases q with
  | nil => rfl
  | cons _ q => simp [Channel.afterRead, Channel.push, Channel.pop]

theorem idleTick_afterRead (s : State) (c : Nat) (q : List Entry) : idleTick (s.afterRead c q) = (idleTick s).afterRead c q :=
  State.eq_afterRead rfl (modify_comm (fun k => by rw [Channel.afterRead_write, Channel.afterRead_setDirection]) ..) rfl

theorem wakeTick_afterRead (s : State) (c : Nat) (q : List Entry) : wakeTick (s.afterRead c q) = (wakeTick s).afterRead c q := by
  unfold wakeTick
  rw [State.afterRead_tmr]
  split_ifs
  · rfl
  · exact State.eq_afterRead rfl (modify_comm (fun k => (k.afterRead_write q _).symm) ..) rfl
  · exact State.eq_afterRead rfl (modify_comm (fun k => (k.afterRead_setDirection q _).symm) ..) rfl

theorem ackTick_afterRead (s : State) (c : Nat) (q : List Entry) : ackTick (s.afterRead c q) = (ackTick s).afterRead c q := by
  unfold ackTick
  dsimp only
  rw [State.afterRead_ah, State.afterRead_level, State.afterRead_acnt, State.afterRead_polls]
  split_ifs <;> rfl

theorem countHigh_afterRead (h : Nat) (s : State) (c : Nat) (q : List Entry) :
    countHigh h (s.afterRead c q) = (countHigh h s).afterRead c q := by
  unfold countHigh
  rw [State.afterRead_cfg, State.afterRead_ch, State.afterRead_idx]
  split_ifs <;> rfl

theorem storeBit_afterRead (s : State) (c : Nat) (q : List Entry) : storeBit (s.afterRead c q) = (storeBit s).afterRead c q := by
  by_cases hidx : s.idx.val < 39
  · rw [storeBit_of_lt (s := s.afterRead c q) hidx, storeBit_of_lt hidx]
    rfl
  · rw [storeBit_of_last (s := s.afterRead c q) hidx, storeBit_of_last hidx]
    rfl

theorem captureRow_afterRead (v : Level) (s : State) (c : Nat) (q : List Entry) :
    captureRow v (s.afterRead c q) = (captureRow v s).afterRead c q := by
  unfold captureRow
  rw [State.afterRead_cph, State.afterRead_cnt]
  cases s.cph with
  | pre => dsimp only; split_ifs <;> rfl
  | low =>
    dsimp only
    split_ifs
    · exact countHigh_afterRead 1 s c q
    · rfl
    · rfl
  | high =>
    dsimp only
    split_ifs
    · exact countHigh_afterRead _ s c q
    · exact storeBit_afterRead s c q
  | idle | done | fail => rfl

theorem captureTick_afterRead (s : State) (c : Nat) (q : List Entry) :
    captureTick (s.afterRead c q) = (captureTick s).afterRead c q := captureRow_afterRead s.level s.sampled c q

theorem decodeStep_afterRead (s : State) (c : Nat) (q : List Entry) :
    decodeStep (s.afterRead c q) = (decodeStep s).afterRead c q := by
  have hf : decodeFrame (s.afterRead c q) = (decodeFrame s).afterRead c q := rfl
  unfold decodeStep
  dsimp only
  rw [hf, State.afterRead_csumOk]
  split_ifs <;> rfl

theorem publishStep_afterRead {k k' : Channel} (h : k'.full = k.full) (s : State) (c : Nat) (q : List Entry) :
    publishStep k' (s.afterRead c q) = (publishStep k s).afterRead c q := by
  cases hf : k.full with
  | true =>
    rw [publishStep_of_full hf, publishStep_of_full (h.trans hf)]
    rfl
  | false =>
    rw [publishStep_of_room hf, publishStep_of_room (h.trans hf)]
    exact State.eq_afterRead rfl (modify_comm (fun k => (k.afterRead_push q _).symm) ..) rfl

theorem sleepTick_afterRead (s : State) (c : Nat) (q : List Entry) :
    sleepTick (s.afterRead c q) = (sleepTick s).afterRead c q := by
  unfold sleepTick
  rw [State.sleepDuration_afterRead, State.afterRead_tmr]
  split_ifs <;> rfl

theorem State.afterRead_chan {s : State} {d : Nat} {k : Channel} (hk : s.chans[d]? = some k) (c : Nat) (q : List Entry) :
    (s.afterRead c q).chans[d]? = some (if c = d then k.afterRead q else k) :=
  getElem?_modify_eq_some.mpr ⟨k, hk, rfl⟩

theorem State.inputReady_afterRead {s : State} (h : s.inputReady) (c : Nat) (q : List Entry) :
    (s.afterRead c q).inputReady := by
  obtain ⟨k, hk, ho⟩ := h
  refine ⟨_, State.afterRead_chan hk c q, ?_⟩
  split
  · cases q <;> exact ho
  · exact ho

/-- A TRY_READ that goes before the step of the sequencer changes nothing about it, but where it makes room for PUBLISH. -/
theorem exec_seq_afterRead {s u : State} (h : exec s.seq.instr s = .next u) {c : Nat} {q : List Entry}
    (hroom : s.seq = .publish → c = s.ch → ∀ k, s.chans[c]? = some k → (k.afterRead q).full = k.full) :
    exec s.seq.instr (s.afterRead c q) = .next (u.afterRead c q) := by
  rcases exec_seq_cases h with ⟨hs, ⟨k, hk⟩, rfl⟩ | ⟨hs, ⟨k, hk⟩, rfl⟩ | ⟨hs, hin, rfl⟩ | ⟨hs, hin, rfl⟩ | ⟨hs, hc, rfl⟩ |
    ⟨hs, hc, k, hk, rfl⟩ | ⟨hs, rfl⟩ <;> rw [hs]
  · exact execIdle_eq_next.mpr ⟨hs, ⟨_, State.afterRead_chan hk c q⟩, (idleTick_afterRead s c q).symm⟩
  · exact execWake_eq_next.mpr ⟨hs, ⟨_, State.afterRead_chan hk c q⟩, (wakeTick_afterRead s c q).symm⟩
  · exact execAck_eq_next.mpr ⟨hs, State.inputReady_afterRead hin c q, (ackTick_afterRead s c q).symm⟩
  · exact execCapture_eq_next.mpr ⟨hs, State.inputReady_afterRead hin c q, (captureTick_afterRead s c q).symm⟩
  · exact execDecode_eq_next.mpr ⟨hs, hc, (decodeStep_afterRead s c q).symm⟩
  · refine execPublish_eq_next.mpr ⟨hs, hc, _, State.afterRead_chan hk c q, (publishStep_afterRead ?_ s c q).symm⟩
    split
    next hcs => exact hroom hs hcs k (hcs ▸ hk)
    · rfl
  · exact execSleep_eq_next.mpr ⟨hs, (sleepTick_afterRead s c q).symm⟩

/-- A TRY_READ after the step of the sequencer sees the head that was there before it, but where that step was the first to put an
entry into the queue. -/
theorem State.Inv.tryRead_after_exec_seq {s u : State} (hi : s.Inv) (hu : exec s.seq.instr s = .next u) {c : Nat}
    {k : Channel} (hk : s.chans[c]? = some k) (hfirst : ¬ (s.seq = .publish ∧ c = s.ch ∧ k.queue = [])) :
    exec (.tryRead c) u = .next (u.afterRead c k.queue) := by
  have hlt : c < u.chans.length := exec_seq_chans_length hu ▸ (List.getElem?_eq_some_iff.mp hk).1
  have hk' : u.chans[c]? = some u.chans[c] := List.getElem?_eq_getElem hlt
  have hq := hi.queueOf_exec_seq hu c
  rw [State.queueOf_of hk, State.queueOf_of hk'] at hq
  rw [execTryRead_of hk', hq, State.afterRead_append]
  exact fun hnil => published_of_not (fun ⟨hs, hc⟩ => hfirst ⟨hs, hc.symm, hnil⟩) u

/-- The step of the sequencer after a TRY_READ does what it does before it, but where that TRY_READ makes room for its entry. -/
theorem exec_seq_after_tryRead {s u : State} (hu : exec s.seq.instr s = .next u) {c : Nat} {k : Channel}
    (hk : s.chans[c]? = some k) (hroom : ¬ (s.seq = .publish ∧ c = s.ch ∧ k.queue.length = 2)) :
    exec s.seq.instr (s.afterRead c k.queue) = .next (u.afterRead c k.queue) := by
  refine exec_seq_afterRead hu fun hs hc k' hk' => ?_
  obtain rfl : k = k' := Option.some.inj (hk.symm.trans hk')
  have hf : k.full = false := Bool.eq_false_iff.mpr fun hf => hroom ⟨hs, hc, k.full_iff.mp hf⟩
  rw [hf, Channel.afterRead_full hf]

theorem execPublish_acc {s u : State} {k : Channel} (hu : execPublish s = .next u) (hk : s.chans[s.ch]? = some k) :
    u.acc = true ↔ k.queue.length < 2 := by
  obtain ⟨-, -, k', hk', rfl⟩ := execPublish_eq_next.mp hu
  obtain rfl : k = k' := Option.some.inj (hk.symm.trans hk')
  rw [publishStep_acc, Bool.not_eq_true', k.full_eq_false_iff]

/-- In one tick (R59): the TRY_READ sees the queue before it, which is the one it sees after the step of the sequencer, or the one
that step is preceded by. -/
theorem State.Inv.runTogether_interleaves {s : State} (hi : s.Inv) {c : Nat} {k : Channel} (hk : s.chans[c]? = some k) :
    ∃ t : State, runTogether c s = .next t ∧ t.rdPort = some k.queue.head? ∧
      (s.seq = .publish → c = s.ch → (t.acc = true ↔ k.queue.length < 2)) ∧
      (¬ (s.seq = .publish ∧ c = s.ch ∧ k.queue = []) →
        ∃ u : State, exec s.seq.instr s = .next u ∧ exec (.tryRead c) u = .next t) ∧
      (¬ (s.seq = .publish ∧ c = s.ch ∧ k.queue.length = 2) →
        ∃ u : State, exec (.tryRead c) s = .next u ∧ exec s.seq.instr u = .next t) := by
  obtain ⟨u, hu⟩ := hi.exec_seq_completes
  refine ⟨u.afterRead c k.queue, runTogether_eq hu hk, rfl, fun hs hc => ?_, fun h => ?_, fun h => ?_⟩
  · rw [State.afterRead_acc]
    exact execPublish_acc (hs ▸ hu : exec Phase.publish.instr s = .next u) (hc ▸ hk)
  · exact ⟨u, hu, hi.tryRead_after_exec_seq hu hk h⟩
  · exact ⟨s.afterRead c k.queue, execTryRead_of hk, exec_seq_after_tryRead hu hk h⟩

/-- Settles O33: in the state in which the turn is used up and the ports are cleared. -/
theorem sameTickIsAnInterleaving : Obligations.SameTickIsAnInterleaving := by
  rintro s a c k rest hi hturns hk rfl
  rw [step_of_scripted hturns]
  exact (hi.of_inputs ..).runTogether_interleaves hk

end Sys2Proof.Machine
end

section
/-! SUPPORT. Proofs of the family `30_encoding`: the decoder and the encoder, the word a trace or a test places, the wake symbol,
captures of whole pulses, and the reading an entry denotes. -/

namespace Sys2Proof.Machine

/-! ## The decoder and the encoder (R78, R80, log 11) -/

theorem toNat_opField (w : Nat) : (opField w).toNat = w % 16 := BitVec.toNat_ofNat w 4

theorem decodeWord_encode (i : Instr) : decodeWord (encode i) = .ok i := by
  cases i
  case tryRead c => exact decodeWord_encode_tryRead c
  all_goals rfl

/-- A word is its two fields, so an operation with this code and this operand is encoded as that word. -/
theorem encode_of_fields {w : Nat} {i : Instr} (hcode : i.code.toNat = (opField w).toNat)
    (hoperand : i.operand = operandField w) : encode i = w := by
  rw [encode, hcode, hoperand, toNat_opField]
  exact Nat.mod_add_div w 16

theorem encode_of_noOperand {w : Nat} {i j : Instr} (h : noOperand w i = .ok j)
    (hcode : i.code.toNat = (opField w).toNat) (hoperand : i.operand = 0) : encode j = w := by
  unfold noOperand at h
  split at h
  next hzero =>
    cases h
    exact encode_of_fields hcode (hoperand.trans hzero.symm)
  next => cases h

/-- No bit of a word that decodes is dropped. -/
theorem encode_of_decodeWord {w : Nat} {i : Instr} (h : decodeWord w = .ok i) : encode i = w := by
  unfold decodeWord at h
  split at h
  case h_8 hcode =>
    cases h
    exact encode_of_fields hcode.symm rfl
  case h_10 => cases h
  all_goals
    rename_i hcode
    exact encode_of_noOperand h hcode.symm rfl

/-- Settles O8: the word of an operation is its two fields, and the decoder reads both. -/
theorem decodeAndEncodeAgree : Obligations.DecodeAndEncodeAgree :=
  ⟨decodeWord_encode, fun _ _ => encode_of_decodeWord, fun _ _ => decide_eq_true_iff⟩

/-- Settles O7: each code is the word of its operation, and TRY_READ's without an operand that of channel 0 (log 11). -/
theorem operationCodes : Obligations.OperationCodes :=
  ⟨decodeWord_encode .idle, decodeWord_encode .wake, decodeWord_encode .ack, decodeWord_encode .capture,
    decodeWord_encode .decode, decodeWord_encode .publish, decodeWord_encode .sleep, decodeWord_encode (.tryRead 0),
    decodeWord_encode .cycle, rfl, rfl, rfl, rfl, rfl, rfl, rfl⟩

theorem decodeWord_of_reserved {w : Nat} (h : 9 ≤ w % 16) : decodeWord w = .error (.reserved (opField w)) := by
  rw [← toNat_opField] at h
  unfold decodeWord
  split
  case h_10 => rfl
  all_goals omega

/-- Settles O9: the decoder's last arm, and the refusal of a word that does not decode. -/
theorem reservedCodesAreRefused : Obligations.ReservedCodesAreRefused := by
  intro s rest w hw hturns
  refine ⟨decodeWord_of_reserved hw, ?_⟩
  rw [step_of_scripted hturns]
  exact runWord_of_error (decodeWord_of_reserved hw) _

/-! ## A placed word (log 10) -/

theorem decodeTableWord_eq_some {nbits w : Nat} {i : Instr} :
    decodeTableWord nbits w = some i ↔ decodeWord (w % 2 ^ nbits) = .ok i := by
  unfold decodeTableWord
  split <;> simp_all

theorem placeWord_of_decodes {w : Nat} {i : Instr} (h : decodeWord w = .ok i) (s : State) :
    placeWord s w = { readyFor i s with turns := .issue w :: (readyFor i s).turns } := by
  simp only [placeWord, h]

/-- Settles O5: the placed word is the scripted turn of the next step. -/
theorem placedWordRunsNext : Obligations.PlacedWordRunsNext := by
  intro s nbits w i h
  have hw := decodeTableWord_eq_some.mp h
  rw [State.withFetchWord, placeWord_of_decodes hw, step_of_scripted rfl]
  exact runWord_of_decodes hw _

/-! ## The wake symbol (R156, R157) -/

theorem wakeTick_of_low {s : State} (h : s.tmr + 1 < 20000) : wakeTick s = { s with tmr := s.tmr + 1, now := s.now + 1 } := by
  rw [wakeTick, if_pos h]
  rfl

theorem wakeTick_of_last {s : State} {k : Channel} (h : s.tmr + 1 = 20000) (hk : s.chans[s.ch]? = some k) :
    wakeTick s = { s with
      tmr := 20000, chans := s.chans.set s.ch { k with out := Level.high }, now := s.now + 1 } := by
  rw [wakeTick, if_neg h.not_lt, if_pos h, State.onChan, modify_eq_set hk]
  rfl

theorem wakeTick_of_over {s : State} {k : Channel} (h : s.tmr = 20000) (hk : s.chans[s.ch]? = some k) :
    wakeTick s = { s with
      seq := .ack, ah := false, polls := 0, acnt := 0
      chans := s.chans.set s.ch { k with oe := false }, now := s.now + 1 } := by
  have hlt : ¬ s.tmr + 1 < Config.wakeLowTicks := h ▸ by decide
  have hne : s.tmr + 1 ≠ Config.wakeLowTicks := h ▸ by decide
  rw [wakeTick, if_neg hlt, if_neg hne, enterAck, State.onChan, modify_eq_set hk]
  rfl

/-- The low hold (R156): below 20000 ticks, only `TMR` and the time move. -/
theorem runSeq_lowHold {s : State} {k : Channel} (hs : s.seq = .wake) (ht : s.tmr = 0) (hk : s.chans[s.ch]? = some k)
    (n : Nat) (hn : n < 20000) : runSeq n s = .next { s with tmr := n, now := s.now + n } := by
  induction n with
  | zero =>
    cases s
    cases ht
    rfl
  | succ n ih =>
    rw [runSeq_then_wake (ih (by omega)) hs hk, wakeTick_of_low hn]
    rfl

theorem Channel.oe_of_driven {k : Channel} {v : Level} (h : k.driven = some v) : k.oe = true := by
  unfold Channel.driven at h
  split at h
  next ho => exact ho
  next => cases h

/-- Settles O12: the low hold, its last tick, and the tick that releases the line. -/
theorem wakeSendsItsSymbol : Obligations.WakeSendsItsSymbol := by
  intro s k hs ht hk hlow
  have hself (k' : Channel) : (s.chans.set s.ch k')[s.ch]? = some k' :=
    List.getElem?_set_self (List.getElem?_eq_some_iff.mp hk).1
  have hlast : runSeq 20000 s = .next { s with
      tmr := 20000, chans := s.chans.set s.ch { k with oe := true, out := Level.high }, now := s.now + 20000 } := by
    rw [← Channel.oe_of_driven hlow]
    refine (runSeq_then_wake (runSeq_lowHold hs ht hk 19999 (by decide)) hs hk).trans ?_
    exact congrArg _ (wakeTick_of_last rfl hk)
  refine ⟨runSeq_lowHold hs ht hk, hlast, (runSeq_then_wake hlast hs (hself _)).trans ?_⟩
  rw [wakeTick_of_over rfl (hself _), List.set_set]

/-! ## Captures of whole pulses (R71, R91 to R96) -/

/-- One bit-period as runs: the low run and the high run, of these widths (R71). -/
def pulseRuns (q : Nat × Nat) : List Run := [runLow q.1, runHigh q.2]

/-- The samples of a list of bit-periods, left to right in time. -/
def pulseSamples (qs : List (Nat × Nat)) : List Level := samplesOf (qs.flatMap pulseRuns)

/-- The ticks of a list of bit-periods. -/
def pulseTicks (qs : List (Nat × Nat)) : Nat := (qs.map fun q => q.1 + q.2).sum

/-- The widths of a bit-period that a capture counts to their ends: the low run up to its ceiling, the high run not empty and below
its own (R93, R94). -/
def pulseFits (p : Params) (q : Nat × Nat) : Prop := q.1 ≤ 256 ∧ 1 ≤ q.2 ∧ ∀ n, p.highCeil = some n → q.2 < n

theorem pulseSamples_cons (q : Nat × Nat) (qs : List (Nat × Nat)) :
    pulseSamples (q :: qs) = List.replicate q.1 Level.low ++ (List.replicate q.2 Level.high ++ pulseSamples qs) := rfl

@[simp] theorem pulseTicks_cons (q : Nat × Nat) (qs : List (Nat × Nat)) :
    pulseTicks (q :: qs) = q.1 + q.2 + pulseTicks qs := rfl

/-- The line over a scripted run of one level, and the script after it. -/
theorem lineAhead_scriptedRun {s : State} {p m : Nat} {v : Level} {rest : List Level}
    (h : s.samples.drop p = List.replicate m v ++ rest) :
    (∀ j < m, s.lineAhead (p + j) = v) ∧ s.samples.drop (p + m) = rest := by
  constructor
  · intro j hj
    have hv : s.samples[p + j]? = some v := by
      rw [← List.getElem?_drop, h, List.getElem?_append_left (by simpa using hj), List.getElem?_replicate_of_lt hj]
    simp only [State.lineAhead, hv]
  · rw [← List.drop_drop, h, List.drop_left' List.length_replicate]

theorem lineAhead_scripted {s : State} {p : Nat} {v : Level} {rest : List Level} (h : s.samples.drop p = v :: rest) :
    s.lineAhead p = v ∧ s.samples.drop (p + 1) = rest :=
  have ⟨hv, hd⟩ := lineAhead_scriptedRun (m := 1) h
  ⟨hv 0 Nat.one_pos, hd⟩

/-- Storing bit `i` after the bits before it (R95). -/
theorem take_set_bit (raw : RawBits) (i : Fin 40) (v : Level) :
    (raw.set i v).toList.take (i + 1) = raw.toList.take i ++ [v] := by
  rw [Vector.toList_set, List.set_eq_take_append_cons_drop, if_pos (by simp), List.take_append]
  simp

section
variable {s : State} (hs : s.seq = .capture) (hi : s.inputReady)
include hs hi

/-- One bit-period, `c` samples of its low run having been counted before: its high run is counted (R93, R94). A low run that has
reached its ceiling has begun the high count already (R93). -/
theorem runSeq_pulse {p c m k : Nat} {idx : Fin 40} {raw : RawBits} {rest : List Level}
    (h : runSeq p s = .next (s.capturing p .low c idx raw)) (hc : c < 256) (hf : pulseFits s.cfg (c + m, k))
    (hd : s.samples.drop p = List.replicate m Level.low ++ (List.replicate k Level.high ++ rest)) :
    runSeq (p + (m + k)) s = .next (s.capturing (p + (m + k)) .high k idx raw) ∧ s.samples.drop (p + (m + k)) = rest := by
  obtain ⟨hm, hk, hceil⟩ := hf
  obtain ⟨hlow, hd⟩ := lineAhead_scriptedRun hd
  obtain ⟨hhigh, hd⟩ := lineAhead_scriptedRun hd
  rw [Nat.add_assoc] at hd
  refine ⟨?_, hd⟩
  rw [← Nat.add_assoc]
  rcases Nat.lt_or_eq_of_le hm with hlt | heq
  · have hfirst := runSeq_firstHigh hs hi (runSeq_lowStretch hs hi h m hlt hlow) (hhigh 0 hk)
      fun h1 => (hceil 1 h1).not_ge hk
    have hrun := runSeq_highStretch hs hi hfirst (k - 1) (fun n hn => by have := hceil n hn; omega)
      fun j hj => by rw [Nat.add_assoc _ 1]; exact hhigh (1 + j) (by omega)
    rwa [Nat.add_assoc _ 1, Nat.add_sub_cancel' hk] at hrun
  · obtain ⟨m, rfl⟩ : ∃ m', m = m' + 1 := ⟨m - 1, by omega⟩
    obtain rfl : c = 255 - m := by omega
    have hwait := runSeq_lowStretch hs hi h m (by omega) fun j hj => hlow j (by omega)
    rw [Nat.sub_add_cancel (by omega)] at hwait
    have hrun := runSeq_highStretch hs hi (runSeq_lowCeiling hs hi hwait (hlow m (by omega))) k
      (fun n hn => by have := hceil n hn; omega) hhigh
    rwa [Nat.zero_add] at hrun

/-- The rest of a capture from the end of the high run of bit `idx`: each further bit-period is one further bit, and the low sample
after the last one ends the capture (R95, R96). -/
theorem runSeq_pulsesToEnd {rest : List Level} (qs : List (Nat × Nat)) {p c : Nat} {idx : Fin 40} {raw : RawBits}
    (h : runSeq p s = .next (s.capturing p .high c idx raw)) (hidx : idx.val + qs.length = 39)
    (hfit : ∀ q ∈ qs, pulseFits s.cfg q) (hlow : ∀ q ∈ qs, 1 ≤ q.1)
    (hd : s.samples.drop p = pulseSamples qs ++ Level.low :: rest) :
    ∃ (c' : Nat) (raw' : RawBits),
      runSeq (p + pulseTicks qs + 1) s = .next { s.capturing (p + pulseTicks qs + 1) .done c' 39 raw' with
        capOk := true, seq := .decode } ∧
      raw'.toList = raw.toList.take idx ++ classify c :: qs.map (fun q => classify q.2) ∧
      s.samples.drop (p + pulseTicks qs + 1) = rest := by
  induction qs generalizing p c idx raw with
  | nil =>
    obtain rfl : idx = 39 := Fin.ext hidx
    obtain ⟨hv, hd⟩ := lineAhead_scripted hd
    refine ⟨c, _, runSeq_captureEnd hs hi h hv rfl, ?_, hd⟩
    have htake := take_set_bit raw 39 (classify c)
    rwa [List.take_of_length_le (by simp)] at htake
  | cons q qs ih =>
    obtain ⟨m, k⟩ := q
    obtain ⟨hq, hfits⟩ := List.forall_mem_cons.mp hfit
    obtain ⟨hm, hlows⟩ := List.forall_mem_cons.mp hlow
    obtain ⟨m, rfl⟩ : ∃ m', m = 1 + m' := ⟨m - 1, (Nat.add_sub_cancel' hm).symm⟩
    rw [List.length_cons] at hidx
    have hlt : idx.val < 39 := by omega
    have hnext : (idx + 1).val = idx.val + 1 := Fin.val_add_one_of_lt (Fin.lt_def.mpr hlt)
    rw [pulseSamples_cons, Nat.add_comm 1 m, List.replicate_succ] at hd
    simp only [List.cons_append, List.append_assoc] at hd
    obtain ⟨hv, hd⟩ := lineAhead_scripted hd
    obtain ⟨hrun, hd⟩ := runSeq_pulse hs hi (runSeq_bitEnd hs hi h hv hlt) (by decide) hq hd
    obtain ⟨c', raw', hend, hbits, hrest⟩ := ih hrun (by omega) hfits hlows hd
    have hp : p + 1 + (m + k) + pulseTicks qs = p + pulseTicks ((1 + m, k) :: qs) := by
      rw [pulseTicks_cons]
      omega
    rw [hp] at hend hrest
    refine ⟨c', raw', hend, ?_, hrest⟩
    rw [hbits, hnext, take_set_bit, List.append_assoc]
    rfl

end

/-- Settles O19: the pre-delay, the first bit-period, and then the further ones by induction. -/
theorem eachHighRunIsOneBit : Obligations.EachHighRunIsOneBit := by
  intro s skipped pulses rest hs hp hc hx hi hskip hlen hfit hlow hd
  cases pulses with
  | nil => cases hlen
  | cons q qs =>
    obtain ⟨hq, hfit⟩ := List.forall_mem_cons.mp hfit
    have hpre := runSeq_preDelay hs hi hp hc
    have hdrop : s.samples.drop 4 = pulseSamples (q :: qs) ++ Level.low :: rest := by
      rw [hd, List.append_assoc, List.drop_left' hskip]
      rfl
    rw [pulseSamples_cons, List.append_assoc, List.append_assoc] at hdrop
    obtain ⟨hrun, hdrop⟩ := runSeq_pulse hs hi hpre (by decide) (by rwa [Nat.zero_add]) hdrop
    obtain ⟨c, raw, hend, hbits, hrest⟩ := runSeq_pulsesToEnd hs hi qs hrun (by rw [hx]; simpa using hlen) hfit hlow hdrop
    refine ⟨_, _, hend, congrArg (· + 1) (Nat.add_assoc 4 ..), ?_, ?_⟩
    · rw [hx] at hbits
      exact hbits
    · rw [← hrest]
      rfl

/-! ## Frames sent with nominal pulses (R83, R104) -/

/-- The widths of `P(v)` (R83). -/
def nominalWidths (v : Level) : Nat × Nat := (50, if v then 70 else 20)

theorem samplesOf_framePulses (f : Frame) :
    samplesOf (framePulses f) = pulseSamples ((bitsOf f).toList.map nominalWidths) := by
  rw [pulseSamples, List.flatMap_map]
  rfl

theorem pulseTicks_nominal (l : List Level) : pulseTicks (l.map nominalWidths) = 70 * l.length + 50 * l.count true := by
  induction l with
  | nil => rfl
  | cons v l ih =>
    rw [List.map_cons, pulseTicks_cons, ih, List.length_cons]
    cases v
    · rw [List.count_cons_of_ne (by decide)]
      show 50 + 20 + _ = _
      omega
    · rw [List.count_cons_self]
      show 50 + 70 + _ = _
      omega

theorem decide_nominalWidths (v : Level) : decide (30 < (nominalWidths v).2) = v := by cases v <;> rfl

/-- Settles O20: the nominal widths fit, and lie on either side of the threshold. -/
theorem nominalFrameIsCaptured : Obligations.NominalFrameIsCaptured := by
  intro s f skipped rest hs hp hc hx hi hceil hskip hd
  have hlen : (bitsOf f).toList.length = 40 := Vector.length_toList
  have hfit : ∀ q ∈ (bitsOf f).toList.map nominalWidths, pulseFits s.cfg q ∧ 1 ≤ q.1 := by
    simp only [List.forall_mem_map]
    intro v _
    cases v
    · exact ⟨⟨by decide, by decide, fun n hn => lt_trans (by decide) (hceil n hn)⟩, by decide⟩
    · exact ⟨⟨by decide, by decide, hceil⟩, by decide⟩
  rw [samplesOf_framePulses] at hd
  obtain ⟨n, t, hrun, hn, hbits, ht⟩ := eachHighRunIsOneBit s skipped _ rest hs hp hc hx hi hskip
    (by rw [List.length_map, hlen]) (fun q hq => (hfit q hq).1) (fun q hq => (hfit q (List.mem_of_mem_tail hq)).2) hd
  have hraw : t.raw = bitsOf f := by
    apply Vector.toList_inj.mp
    rw [hbits, List.map_map]
    exact List.map_id'' decide_nominalWidths _
  have hticks : pulseTicks ((bitsOf f).toList.map nominalWidths) = 70 * 40 + 50 * (bitsOf f).toList.count true := by
    rw [pulseTicks_nominal, hlen]
  have hones : (bitsOf f).toList.count true ≤ 40 := List.count_le_length.trans_eq hlen
  rw [pulseTicks] at hticks
  have hsteps : 4 + 120 * (bitsOf f).toList.count true + 70 * (40 - (bitsOf f).toList.count true) + 1 = n := by omega
  exact ⟨_, t, rfl, by rw [hsteps, hrun], by rw [ht], by rw [ht], by rw [hraw, frameOf_bitsOf], by rw [ht]⟩

/-! ## The reading of an entry (R76, R77) -/

theorem toNat_entryH10 (e : Entry) : (entryH10 e).toNat = e.toNat / 65536 := by
  rw [entryH10, BitVec.extractLsb'_toNat, Nat.shiftRight_eq_div_pow]
  exact Nat.mod_eq_of_lt (Nat.div_lt_of_lt_mul e.isLt)

theorem toNat_entryTmag (e : Entry) : (entryTmag e).toNat = e.toNat % 32768 := by
  rw [entryTmag, BitVec.extractLsb'_toNat]
  rfl

section
variable (h : BitVec 16) (g : Bool) (m : BitVec 15)

theorem getLsbD_entryOf (i : Nat) :
    (entryOf h g m).getLsbD i = if i < 15 then m.getLsbD i else if i = 15 then g else h.getLsbD (i - 16) := by
  rw [entryOf, BitVec.getLsbD_append, BitVec.getLsbD_append]
  rcases Nat.lt_trichotomy i 15 with hi | rfl | hi
  · rw [if_pos hi, if_pos hi]
  · simp
  · rw [if_neg (by omega), if_neg (by omega), if_neg (by omega), if_neg (by omega)]
    rfl

theorem entryH10_entryOf : entryH10 (entryOf h g m) = h := by
  apply BitVec.eq_of_getLsbD_eq
  intro i hi
  rw [entryH10, BitVec.getLsbD_extractLsb', getLsbD_entryOf, if_neg (by omega), if_neg (by omega), decide_eq_true hi,
    Bool.true_and, Nat.add_sub_cancel_left]

theorem entrySign_entryOf : entrySign (entryOf h g m) = g := getLsbD_entryOf h g m 15

theorem entryTmag_entryOf : entryTmag (entryOf h g m) = m := by
  apply BitVec.eq_of_getLsbD_eq
  intro i hi
  rw [entryTmag, BitVec.getLsbD_extractLsb', getLsbD_entryOf, Nat.zero_add, if_pos hi, decide_eq_true hi, Bool.true_and]

end

/-- Settles O28: the three fields of an entry, by its bits and by what it was built from. -/
theorem readingOfAnEntry : Obligations.ReadingOfAnEntry := by
  intro e
  refine ⟨?_, ?_, ?_⟩
  · rw [readingHumidity, toNat_entryH10]
  · rw [readingTemperature, toNat_entryTmag, mul_div_assoc, entrySign]
    cases e.getLsbD 15 <;> simp
  · rintro h g m rfl
    rw [readingHumidity, readingTemperature, entryH10_entryOf, entrySign_entryOf, entryTmag_entryOf]
    refine ⟨rfl, ?_⟩
    cases g <;> simp

end Sys2Proof.Machine
end

section
/-! SUPPORT. Proofs of the family `40_capture`: the two forms of CAPTURE, lines that stay at one level, the rows of CAPTURE's table,
and when an operation is refused. -/

namespace Sys2Proof.Machine

/-! ## Bits stored so far (R95) -/

/-- `raw` is `old` with `bits` stored in its first cells. -/
def bitsStored (old : RawBits) (bits : List Level) (raw : RawBits) : Prop :=
  raw.toList = bits ++ old.toList.drop bits.length

theorem bitsStored_nil (old : RawBits) : bitsStored old [] old := rfl

/-- The next bit stored is one more bit. -/
theorem bitsStored_set {old raw : RawBits} {bits : List Level} {idx : Fin 40} (h : bitsStored old bits raw)
    (hidx : idx.val = bits.length) (v : Level) : bitsStored old (bits ++ [v]) (raw.set idx v) := by
  have hlt : bits.length < old.toList.length := by
    rw [Vector.length_toList, ← hidx]
    exact idx.isLt
  unfold bitsStored at h ⊢
  rw [Vector.toList_set, h, hidx, List.drop_eq_getElem_cons hlt]
  simp

/-- Forty bits stored are all of `RAW`. -/
theorem toList_of_bitsStored {old raw : RawBits} {bits : List Level} (h : bitsStored old bits raw)
    (hlen : bits.length = 40) : raw.toList = bits := by
  rw [h, hlen, List.drop_of_length_le (by simp), List.append_nil]

/-! ## A high count below its ceiling, and one at it (R94, R97) -/

theorem countHigh_of_ne {s : State} {h : Nat} (hn : s.cfg.highCeil ≠ some h) :
    countHigh h s = { s with cph := .high, cnt := h } := if_neg hn

theorem countHigh_of_eq {s : State} {h : Nat} (hn : s.cfg.highCeil = some h) : countHigh h s =
    raise (.incompleteCapture s.ch s.idx) { s with cph := .fail, capOk := false } := if_pos hn

/-! ## A low-wait and a high count as the run-length form has them (R93, R94) -/

/-- The run-length low-wait stops after `k` low samples: at a high sample, or because it has no room left. -/
theorem lowWait_spec (line : Nat → Level) (room p : Nat) : ∃ k ≤ room, lowWait line room p = p + k ∧
    (∀ j < k, line (p + j) = Level.low) ∧ (k < room → line (p + k) = Level.high) := by
  induction room generalizing p with
  | zero => exact ⟨0, le_refl 0, rfl, by omega, by omega⟩
  | succ room ih =>
    unfold lowWait
    split
    next hv =>
      obtain ⟨k, hk, he, hlow, hhigh⟩ := ih (p + 1)
      simp only [Nat.add_assoc, Nat.add_comm 1] at he hlow hhigh
      refine ⟨k + 1, by omega, he, fun j hj => ?_, fun hlt => hhigh (by omega)⟩
      cases j with
      | zero => exact hv
      | succ j => exact hlow j (by omega)
    next hv => exact ⟨0, by omega, rfl, by omega, fun _ => Bool.eq_true_of_not_eq_false hv⟩

/-- The high count of bit `idx` stands at `h` before tick `p`: it is under way, or tick `p` shows the high sample that ends the
low-wait before it. -/
def State.countsHigh (s : State) (p h : Nat) (idx : Fin 40) (raw : RawBits) : Prop :=
  runSeq p s = .next (s.capturing p .high h idx raw) ∨
    h = 0 ∧ s.lineAhead p = Level.high ∧ ∃ c, runSeq p s = .next (s.capturing p .low c idx raw)

/-- The state of a capture that has failed in bit `idx`, `p` ticks after its entry (R97, R184). -/
def State.captureFailed (s : State) (p cnt : Nat) (idx : Fin 40) (raw : RawBits) : State :=
  raise (.incompleteCapture s.ch idx) { s.capturing p .fail cnt idx raw with capOk := false }

/-- Where a capture from `s` comes to, if the run-length form ends so. -/
def State.reaches (s : State) : CaptureEnd → Prop
  | .captured bits e => ∃ (cnt : Nat) (raw : RawBits), raw.toList = bits ∧
      runSeq (e + 1) s = .next { s.capturing (e + 1) .done cnt 39 raw with capOk := true, seq := .decode }
  | .incomplete bits e => ∃ (cnt : Nat) (idx : Fin 40) (raw : RawBits), bitsStored s.raw bits raw ∧ idx.val = bits.length ∧
      runSeq (e + 1) s = .next (s.captureFailed (e + 1) cnt idx raw)

section
variable {s : State} (hs : s.seq = .capture) (hi : s.inputReady)
include hs hi

/-- The low samples that bring a low-wait to its ceiling (R93, R98): the high count begins at 0. -/
theorem runSeq_lowToCeiling {p c : Nat} {idx : Fin 40} {raw : RawBits}
    (h : runSeq p s = .next (s.capturing p .low c idx raw)) (m : Nat) (hm : c + (m + 1) = 256)
    (hl : ∀ j < m + 1, s.lineAhead (p + j) = Level.low) :
    runSeq (p + (m + 1)) s = .next (s.capturing (p + (m + 1)) .high 0 idx raw) := by
  have hwait := runSeq_lowStretch hs hi h m (by omega) fun j hj => hl j (by omega)
  rw [show c + m = 255 by omega] at hwait
  exact runSeq_lowCeiling hs hi hwait (hl m (by omega))

/-- A low-wait with `room` samples left ends where the run-length form ends it, and the high count begins (R93). -/
theorem countsHigh_of_lowWait {p c room : Nat} {idx : Fin 40} {raw : RawBits}
    (h : runSeq p s = .next (s.capturing p .low c idx raw)) (hroom : c + room = 256) (hc : c < 256) :
    s.countsHigh (lowWait s.lineAhead room p) 0 idx raw := by
  obtain ⟨k, hk, he, hlow, hhigh⟩ := lowWait_spec s.lineAhead room p
  rw [he]
  rcases hk.lt_or_eq with hlt | rfl
  · exact .inr ⟨rfl, hhigh hlt, _, runSeq_lowStretch hs hi h k (by omega) hlow⟩
  · obtain ⟨m, rfl⟩ : ∃ m, k = m + 1 := ⟨k - 1, by omega⟩
    exact .inl (runSeq_lowToCeiling hs hi h m hroom hlow)

/-- A high sample is counted, the first of a bit as the others (R94). -/
theorem runSeq_highSample {p h : Nat} {idx : Fin 40} {raw : RawBits} (hat : s.countsHigh p h idx raw)
    (hl : s.lineAhead p = Level.high) : ∃ (cph : CapturePhase) (cnt : Nat),
      runSeq (p + 1) s = .next (countHigh (h + 1) (s.capturing (p + 1) cph cnt idx raw)) := by
  rcases hat with hrun | ⟨rfl, -, c, hrun⟩
  · exact ⟨.high, h, by rw [runSeq_capturing hs hi hrun, hl]; rfl⟩
  · exact ⟨.low, c, by rw [runSeq_capturing hs hi hrun, hl]; rfl⟩

theorem countsHigh_succ {p h : Nat} {idx : Fin 40} {raw : RawBits} (hat : s.countsHigh p h idx raw)
    (hl : s.lineAhead p = Level.high) (hn : s.cfg.highCeil ≠ some (h + 1)) : s.countsHigh (p + 1) (h + 1) idx raw := by
  obtain ⟨cph, cnt, hrun⟩ := runSeq_highSample hs hi hat hl
  exact .inl (hrun.trans (congrArg Host.Outcome.next (countHigh_of_ne hn)))

/-- The high sample that brings the count to its ceiling (R97). -/
theorem runSeq_highCeiling {p h : Nat} {idx : Fin 40} {raw : RawBits} (hat : s.countsHigh p h idx raw)
    (hl : s.lineAhead p = Level.high) (hn : s.cfg.highCeil = some (h + 1)) :
    ∃ cnt, runSeq (p + 1) s = .next (s.captureFailed (p + 1) cnt idx raw) := by
  obtain ⟨cph, cnt, hrun⟩ := runSeq_highSample hs hi hat hl
  exact ⟨cnt, hrun.trans (congrArg Host.Outcome.next (countHigh_of_eq hn))⟩

/-- The low sample that ends a bit but the last is the first of the next low-wait, so the next high count begins where the
run-length form has it (R95). -/
theorem countsHigh_of_bitEnd {p cnt : Nat} {idx : Fin 40} {raw : RawBits}
    (h : runSeq p s = .next (s.capturing p .high cnt idx raw)) (hl : s.lineAhead p = Level.low) (hidx : idx.val < 39) :
    s.countsHigh (lowWait s.lineAhead Config.lowCeil p) 0 (idx + 1) (raw.set idx (classify cnt)) := by
  have hwait : lowWait s.lineAhead Config.lowCeil p = lowWait s.lineAhead 255 (p + 1) := if_pos hl
  rw [hwait]
  exact countsHigh_of_lowWait hs hi (runSeq_bitEnd hs hi h hl hidx) rfl (by decide)

variable {n : Nat} (hn : s.cfg.highCeil = some n)
include hn

/-- Where the run-length form counts a high run to its end, so does the machine, and the sample after it is low (R94, R95). -/
theorem runSeq_highRun {room p h p' h' : Nat} {idx : Fin 40} {raw : RawBits} (hat : s.countsHigh p h idx raw)
    (hroom : h + room = n) (he : highRun s.lineAhead room p h = some (p', h')) :
    runSeq p' s = .next (s.capturing p' .high h' idx raw) ∧ s.lineAhead p' = Level.low := by
  induction room generalizing p h with
  | zero => cases he
  | succ room ih =>
    unfold highRun at he
    split at he
    next hv =>
      have hne : room ≠ 0 := by rintro rfl; cases he
      refine ih (countsHigh_succ hs hi hat hv ?_) (by omega) he
      rw [hn, ne_eq, Option.some.injEq]
      omega
    next hv =>
      cases he
      exact ⟨hat.resolve_right fun ⟨_, hhigh, _⟩ => hv hhigh, Bool.eq_false_of_not_eq_true hv⟩

/-- Where the run-length form reaches the ceiling, the machine fails at that sample (R97). -/
theorem runSeq_highRun_none {room p h : Nat} {idx : Fin 40} {raw : RawBits} (hat : s.countsHigh p h idx raw)
    (hroom : h + (room + 1) = n) (he : highRun s.lineAhead (room + 1) p h = none) :
    ∃ cnt, runSeq (p + (room + 1)) s = .next (s.captureFailed (p + (room + 1)) cnt idx raw) := by
  induction room generalizing p h with
  | zero =>
    unfold highRun at he
    split at he
    next hv => exact runSeq_highCeiling hs hi hat hv (by rw [hn, ← hroom])
    next => cases he
  | succ room ih =>
    unfold highRun at he
    split at he
    next hv =>
      have hat' := countsHigh_succ hs hi hat hv (by rw [hn, ne_eq, Option.some.injEq]; omega)
      have hrun := ih hat' (by omega) he
      rwa [Nat.add_assoc p, Nat.add_comm 1] at hrun
    next => cases he

/-- From the high count of a bit on, the machine ends as the run-length form does (R100): by recursion on the bits that come after
it. -/
theorem reaches_captureBits (hpos : 0 < n) (todo : Nat) {p : Nat} {bits : List Level} {idx : Fin 40} {raw : RawBits}
    (hat : s.countsHigh (lowWait s.lineAhead Config.lowCeil p) 0 idx raw) (hidx : idx.val = bits.length)
    (htodo : bits.length + todo = 39) (hraw : bitsStored s.raw bits raw) :
    s.reaches (captureBits s.lineAhead n (todo + 1) p bits) := by
  unfold captureBits
  split
  next he =>
    obtain ⟨room, rfl⟩ : ∃ room, n = room + 1 := ⟨n - 1, by omega⟩
    obtain ⟨cnt, hrun⟩ := runSeq_highRun_none hs hi hn hat (Nat.zero_add _) he
    exact ⟨cnt, idx, raw, hraw, hidx, hrun⟩
  next p' h he =>
    obtain ⟨hrun, hlow⟩ := runSeq_highRun hs hi hn hat (Nat.zero_add _) he
    have hraw' := bitsStored_set hraw hidx (classify h)
    match todo with
    | 0 =>
      obtain rfl : idx = 39 := Fin.ext (hidx.trans htodo)
      exact ⟨h, _, toList_of_bitsStored hraw' (by simpa using htodo), runSeq_captureEnd hs hi hrun hlow rfl⟩
    | todo + 1 =>
      have hlt : idx.val < 39 := by omega
      have hnext : (idx + 1).val = idx.val + 1 := Fin.val_add_one_of_lt (Fin.lt_def.mpr hlt)
      refine reaches_captureBits hpos todo (countsHigh_of_bitEnd hs hi hrun hlow hlt) ?_ ?_ hraw'
      · rw [hnext, hidx, List.length_append, List.length_singleton]
      · rw [List.length_append, List.length_singleton]
        omega

/-- The whole capture, from its entry (R92, R100, R103). -/
theorem reaches_captureRuns (hpos : 0 < n) (hp : s.cph = .pre) (hc : s.cnt = 0) (hx : s.idx = 0) :
    s.reaches (captureRuns s.lineAhead n) := by
  have hpre := runSeq_preDelay hs hi hp hc
  exact reaches_captureBits hs hi hn hpos 39 (countsHigh_of_lowWait hs hi hpre rfl (by decide)) (by rw [hx]; rfl) rfl
    (bitsStored_nil s.raw)

end

/-- Settles O18: the per-tick machine follows the run-length form bit by bit. -/
theorem captureAgreesWithRunLengths : Obligations.CaptureAgreesWithRunLengths := by
  intro s n bits e hs hp hc hx hi hn hpos
  have hend := reaches_captureRuns hs hi hn hpos hp hc hx
  constructor
  · intro h
    rw [h] at hend
    obtain ⟨cnt, raw, hbits, hrun⟩ := hend
    exact ⟨_, hrun, hbits, rfl⟩
  · intro h
    rw [h] at hend
    obtain ⟨cnt, idx, raw, hraw, hidx, hrun⟩ := hend
    exact ⟨_, hrun, hraw, hidx, rfl⟩

/-! ## Lines that stay at one level (R98, R101) -/

section
variable {s : State} (hs : s.seq = .capture) (hi : s.inputReady) (hp : s.cph = .pre) (hc : s.cnt = 0)
include hs hi hp hc

/-- On a line that stays low, the high count of bit `i` stands at 0 after `260 + 256 i` ticks, and the bits before it are zeros. -/
theorem runSeq_stuckLow (hx : s.idx = 0) (hl : ∀ j < 10245, s.lineAhead j = Level.low) (i : Nat) (hle : i ≤ 39) :
    ∃ (idx : Fin 40) (raw : RawBits), idx.val = i ∧ bitsStored s.raw (List.replicate i false) raw ∧
      runSeq (260 + 256 * i) s = .next (s.capturing (260 + 256 * i) .high 0 idx raw) := by
  induction i with
  | zero =>
    exact ⟨s.idx, s.raw, congrArg Fin.val hx, bitsStored_nil s.raw,
      runSeq_lowToCeiling hs hi (runSeq_preDelay hs hi hp hc) 255 rfl fun j hj => hl _ (by omega)⟩
  | succ i ih =>
    obtain ⟨idx, raw, hidx, hraw, hrun⟩ := ih (by omega)
    have hlt : idx.val < 39 := by omega
    refine ⟨idx + 1, raw.set idx false, ?_, ?_, ?_⟩
    · rw [Fin.val_add_one_of_lt (Fin.lt_def.mpr hlt), hidx]
    · rw [List.replicate_succ']
      exact bitsStored_set hraw (by rw [hidx, List.length_replicate]) false
    · have hbit := runSeq_bitEnd hs hi hrun (hl _ (by omega)) hlt
      have hticks : 260 + 256 * (i + 1) = 260 + 256 * i + 1 + (254 + 1) := by omega
      rw [hticks]
      exact runSeq_lowToCeiling hs hi hbit 254 rfl fun j hj => hl _ (by omega)

/-- On a line that stays high, a capture with ceiling 256 fails in its first bit at its 260th tick (R97). -/
theorem runSeq_stuckHigh (hn : s.cfg.highCeil = some 256) (hl : ∀ j < 260, s.lineAhead j = Level.high) :
    runSeq 260 s = .next (s.captureFailed 260 255 s.idx s.raw) := by
  have hfirst := runSeq_firstHigh hs hi (runSeq_preDelay hs hi hp hc) (hl 4 (by decide)) (by rw [hn]; decide)
  have hrun := runSeq_highStretch hs hi hfirst 254 (by simp [hn]) fun j hj => hl _ (by omega)
  rw [runSeq_capturing hs hi hrun, hl 259 (by decide)]
  exact congrArg Host.Outcome.next (countHigh_of_eq hn)

end

/-- Settles O22: after the 39th bit the sample that follows ends the last one. -/
theorem stuckLowLineGivesZeros : Obligations.StuckLowLineGivesZeros := by
  intro s hs hp hc hx hi hl
  obtain ⟨idx, raw, hidx, hraw, hrun⟩ := runSeq_stuckLow hs hi hp hc hx hl 39 (le_refl 39)
  obtain rfl : idx = 39 := Fin.ext hidx
  have hzeros : raw.set 39 false = Vector.replicate 40 false :=
    Vector.toList_inj.mp (toList_of_bitsStored (bitsStored_set hraw (idx := 39) rfl false) rfl)
  rw [← hzeros]
  exact runSeq_captureEnd hs hi hrun (hl 10244 (by decide)) rfl

/-- Without a ceiling a high sample moves the capture phase and its counter alone (R97). -/
theorem captureRow_high_of_noCeiling {s : State} (hn : s.cfg.highCeil = none) :
    ∃ (cph : CapturePhase) (cnt : Nat), captureRow Level.high s = { s with cph := cph, cnt := cnt } := by
  have hcount (h : Nat) : countHigh h s = { s with cph := .high, cnt := h } := countHigh_of_ne (by rw [hn]; nofun)
  unfold captureRow
  split
  · split <;> exact ⟨_, _, rfl⟩
  · exact ⟨_, _, hcount 1⟩
  · exact ⟨_, _, hcount (s.cnt + 1)⟩
  all_goals exact ⟨_, _, rfl⟩

/-- Without a ceiling a capture on a line that stays high runs on (R97, R101). -/
theorem runSeq_high_of_noCeiling {s : State} (hs : s.seq = .capture) (hi : s.inputReady) (hn : s.cfg.highCeil = none) {n : Nat}
    (hl : ∀ j < n, s.lineAhead j = Level.high) :
    ∃ (cph : CapturePhase) (cnt : Nat), runSeq n s = .next (s.capturing n cph cnt s.idx s.raw) := by
  induction n with
  | zero => exact ⟨s.cph, s.cnt, rfl⟩
  | succ n ih =>
    obtain ⟨cph, cnt, hrun⟩ := ih fun j hj => hl j (by omega)
    obtain ⟨cph', cnt', hrow⟩ := captureRow_high_of_noCeiling (s := s.capturing (n + 1) cph cnt s.idx s.raw) hn
    exact ⟨cph', cnt', by rw [runSeq_capturing hs hi hrun, hl n (by omega), hrow]; rfl⟩

/-- Settles O23: the count reaches its ceiling, or there is none. -/
theorem stuckHighLineFailsOrHangs : Obligations.StuckHighLineFailsOrHangs := by
  intro s hs hp hc hx hi
  constructor
  · intro hn hl
    rw [← hx, runSeq_stuckHigh hs hi hp hc hn hl]
    rfl
  · intro hn n hl
    obtain ⟨cph, cnt, hrun⟩ := runSeq_high_of_noCeiling hs hi hn hl
    exact ⟨_, hrun, hs, rfl⟩

/-! ## The rows of CAPTURE's table (R99) -/

/-- Where no capture runs, only the tick and its sample pass (log 17). -/
theorem captureTick_of_stopped {s : State} (h : s.cph = .idle ∨ s.cph = .done ∨ s.cph = .fail) : captureTick s = s.sampled := by
  rcases h with h | h | h <;> simp only [captureTick, captureRow, State.sampled_cph, h]

/-- Settles O17: the tick of each phase, and the branch that its row's conditions take. -/
theorem captureTickRows : Obligations.CaptureTickRows := by
  rintro s _ hs hi rfl
  have htick {t : State} (h : captureTick s = t) : exec .capture s = .next t := execCapture_eq_next.mpr ⟨hs, hi, h.symm⟩
  refine ⟨fun hp hcnt => ?_, fun hp hcnt => ?_, fun hp hl hcnt => ?_, fun hp hl hcnt => ?_, fun hp hl hn => ?_,
    fun hp hl hlt => ?_, fun hp hl hn => ?_, fun hp hl hidx => ?_, fun hp hl hidx => ?_, fun h => ?_⟩ <;> apply htick
  · rw [captureTick_of_pre hp]
    exact if_pos hcnt
  · rw [captureTick_of_pre hp]
    exact if_neg hcnt.not_lt
  · rw [captureTick_of_low hp, hl]
    exact if_pos hcnt
  · rw [captureTick_of_low hp, hl]
    exact if_neg hcnt.not_lt
  · rw [captureTick_of_low hp, hl]
    exact countHigh_of_ne (s := s.sampled) hn
  · rw [captureTick_of_high hp, hl]
    exact (countHigh_of_ne (s := s.sampled) fun hn => (hlt _ hn).false).trans (by rw [← hp]; rfl)
  · rw [captureTick_of_high hp, hl]
    exact countHigh_of_eq (s := s.sampled) hn
  · rw [captureTick_of_high hp, hl]
    exact storeBit_of_lt (s := s.sampled) hidx
  · rw [captureTick_of_high hp, hl]
    exact storeBit_of_last (s := s.sampled) hidx.not_lt
  · exact captureTick_of_stopped h

/-! ## Refusals (U13) -/

theorem onPhase_of_ne {s : State} {p : Phase} (h : s.seq ≠ p) (r : Outcome) : onPhase p s r = .refused .outOfSequence := if_neg h

theorem onInputLine_of_output {s : State} {k : Channel} (hk : s.chans[s.ch]? = some k) (ho : k.oe = true) (r : Outcome) :
    onInputLine s r = .refused .lineIsOutput :=
  (onCurrent_of hk _).trans (if_pos ho)

theorem exec_of_seq_ne {s : State} {p : Phase} (h : s.seq ≠ p) : exec p.instr s = .refused .outOfSequence := by
  cases p <;> exact onPhase_of_ne h _

/-- Settles O45: each operation tests the phase, then its precondition. -/
theorem outOfSequenceIsRefused : Obligations.OutOfSequenceIsRefused := by
  refine ⟨fun p s => exec_of_seq_ne, ?_, ?_, ?_, ?_⟩
  · intro s hs hc
    exact (if_neg fun ⟨hc', _⟩ => by simp [hc] at hc').trans (onPhase_of_ne hs _)
  · exact fun s k hk ho => ⟨fun hs => (onPhase_of hs _).trans (onInputLine_of_output hk ho _),
      fun hs => (onPhase_of hs _).trans (onInputLine_of_output hk ho _)⟩
  · intro s hs hc
    exact (onPhase_of hs _).trans (if_neg (by rw [hc]; nofun))
  · intro s k hk hs hc
    exact (onPhase_of hs _).trans ((onCurrent_of hk _).trans (if_neg (by rw [hc]; nofun)))

end Sys2Proof.Machine
end

section
/-! SUPPORT. Proofs of the family `41_decode`: what DECODE writes, where it goes, and the laws of the bytes it gives back. -/

namespace Sys2Proof.Machine

/-! ## The bytes of the stream (R51, R111) -/

theorem sum_weighted_bits_lt (f : Fin 8 → Level) : ∑ j : Fin 8, (f j).toNat * 2 ^ (7 - j.val) < 256 :=
  calc ∑ j : Fin 8, (f j).toNat * 2 ^ (7 - j.val)
    _ ≤ ∑ j : Fin 8, 1 * 2 ^ (7 - j.val) := Finset.sum_le_sum fun j _ => Nat.mul_le_mul_right _ (Bool.toNat_le (f j))
    _ < 256 := by decide

/-- The packer in the form of R111: no sum of eight weighted bits wraps. -/
theorem toNat_byteAt (raw : RawBits) (k : Fin 5) :
    (byteAt raw k).toNat = ∑ j : Fin 8, (raw[8 * k.val + j.val]'(by omega)).toNat * 2 ^ (7 - j.val) := by
  have hsum : ((List.range 8).map fun j => (rawAt raw (8 * k + j)).toNat * 2 ^ (7 - j)).sum =
      ∑ j : Fin 8, (rawAt raw (8 * k + j)).toNat * 2 ^ (7 - j.val) :=
    Finset.sum_range (n := 8) fun j => (rawAt raw (8 * k + j)).toNat * 2 ^ (7 - j)
  rw [byteAt, hsum, BitVec.toNat_ofNat, Nat.mod_eq_of_lt (sum_weighted_bits_lt _)]
  exact Finset.sum_congr rfl fun j _ => by rw [rawAt_eq]

theorem getElem_bytesOf (raw : RawBits) (k : Fin 5) : (bytesOf raw)[k] = byteAt raw k := by
  fin_cases k <;> rfl

theorem eq_and_eq_of_append_eq {m n : Nat} {a c : BitVec m} {b d : BitVec n} (h : a ++ b = c ++ d) : a = c ∧ b = d :=
  ⟨by simpa only [BitVec.extractLsb'_append_eq_left] using congrArg (BitVec.extractLsb' n m) h,
    by simpa only [BitVec.extractLsb'_append_eq_right] using congrArg (BitVec.extractLsb' 0 n) h⟩

theorem joinBytes_injective : Function.Injective joinBytes := by
  intro b c h
  obtain ⟨h, h4⟩ := eq_and_eq_of_append_eq h
  obtain ⟨h, h3⟩ := eq_and_eq_of_append_eq h
  obtain ⟨h, h2⟩ := eq_and_eq_of_append_eq h
  obtain ⟨h0, h1⟩ := eq_and_eq_of_append_eq h
  refine Vector.ext fun i hi => ?_
  interval_cases i <;> assumption

/-- The round trip of R121: the packer undoes the stream of five bytes. -/
theorem bytesOf_bitsOf_joinBytes (b : Vector Byte 5) : bytesOf (bitsOf (joinBytes b)) = b :=
  joinBytes_injective (by rw [joinBytes_bytesOf, frameOf_bitsOf])

/-! ## The checksum, the sign and the tenths (R112, R113, R116) -/

theorem checkSumHolds_iff (b : Vector Byte 5) :
    checkSumHolds b = true ↔ (b[0].toNat + b[1].toNat + b[2].toNat + b[3].toNat) % 256 = b[4].toNat := beq_iff_eq

/-- The sign bit says that temperature-high is at least its weight. -/
theorem signOf_eq_decide (raw : RawBits) : signOf raw = decide (128 ≤ (bytesOf raw)[2].toNat) := by
  rw [signOf_eq]
  exact (BitVec.msb_eq_getLsbD_last _).symm.trans (BitVec.msb_eq_decide _)

/-- `THC` lies below 128, whether the weight was subtracted or not (R113). -/
theorem toNat_correctedHigh_signOf (raw : RawBits) :
    (correctedHigh (signOf raw) (bytesOf raw)[2]).toNat = (bytesOf raw)[2].toNat % 128 := by
  rw [signOf_eq, correctedHigh_toNat]

theorem correctedHigh_false (b2 : Byte) : correctedHigh false b2 = b2 := rfl

theorem toNat_humidityTenths (b : Vector Byte 5) : (humidityTenths b).toNat = 256 * b[0].toNat + b[1].toNat := by
  rw [humidityTenths_eq_append, toNat_byte_append]

theorem toNat_temperatureTenths {thc : Byte} (h : thc.toNat < 128) (b : Vector Byte 5) :
    (temperatureTenths thc b).toNat = 256 * thc.toNat + b[3].toNat := by
  rw [temperatureTenths, BitVec.toNat_ofNat]
  exact Nat.mod_eq_of_lt (by omega)

/-- A set sign makes the temperature negative, but for the magnitude 0 (R121). -/
theorem readingTemperature_entryOf_neg (h : BitVec 16) {m : BitVec 15} (hm : m ≠ 0) :
    readingTemperature (entryOf h true m) < 0 := by
  have hpos : 0 < m.toNat := Nat.pos_of_ne_zero fun h0 => hm (BitVec.eq_of_toNat_eq h0)
  rw [((readingOfAnEntry _).2.2 h true m rfl).2, if_pos rfl, Left.neg_neg_iff]
  positivity

theorem readingTemperature_entryOf_nonneg (h : BitVec 16) (m : BitVec 15) : 0 ≤ readingTemperature (entryOf h false m) := by
  rw [((readingOfAnEntry _).2.2 h false m rfl).2, if_neg Bool.false_ne_true]
  positivity

/-! ## The step of DECODE (R114, R115) -/

theorem decodeStep_of_checkSum {s : State} (h : checkSumHolds (bytesOf s.raw) = true) :
    decodeStep s = { decodeFrame s with seq := .publish } := if_pos h

theorem decodeStep_of_mismatch {s : State} (h : checkSumHolds (bytesOf s.raw) = false) :
    decodeStep s = raise (mismatchEvent (decodeFrame s)) (decodeFrame s) := if_neg (Bool.eq_false_iff.mp h)

theorem decodeStep_csumOk (s : State) : (decodeStep s).csumOk = checkSumHolds (bytesOf s.raw) := by
  cases h : checkSumHolds (bytesOf s.raw) with
  | true => rw [decodeStep_of_checkSum h]; exact h
  | false => rw [decodeStep_of_mismatch h]; exact h

theorem decodeStep_thc (s : State) :
    (decodeStep s).thc = correctedHigh (signOf s.raw) (bytesOf s.raw)[2] := by
  cases h : checkSumHolds (bytesOf s.raw) with
  | true => rw [decodeStep_of_checkSum h]; rfl
  | false => rw [decodeStep_of_mismatch h]; rfl

/-- Settles O24: each register by the rule that computes it, the rest by `decodeStep_writes`. -/
theorem decodeWritesTheFrame : Obligations.DecodeWritesTheFrame := by
  intro s hs hc
  obtain ⟨hb, hsign, hh10, htmag⟩ := decodeStep_registers s
  have hthc := toNat_correctedHigh_signOf s.raw
  have hlt : (correctedHigh (signOf s.raw) (bytesOf s.raw)[2]).toNat < 128 := by omega
  refine ⟨_, execDecode_eq_next.mpr ⟨hs, hc, rfl⟩, ?_, ?_, hsign, ?_, ?_, ?_, ?_, decodeStep_writes s⟩
  · intro k
    rw [hb, getElem_bytesOf, toNat_byteAt]
  · rw [decodeStep_csumOk, hb]
    exact checkSumHolds_iff _
  · have hbit : s.raw[16] = decide (128 ≤ (bytesOf s.raw)[2].toNat) := signOf_eq_decide s.raw
    rw [decodeStep_thc, hb, hthc, hbit]
    simp only [decide_eq_true_eq]
    split <;> omega
  · rw [decodeStep_thc]
    exact hlt
  · rw [hh10, hb]
    exact toNat_humidityTenths _
  · rw [htmag, hb, decodeStep_thc]
    exact toNat_temperatureTenths hlt _

/-- Settles O25: by the checksum; the bytes of the event side by side are the frame. -/
theorem decodeTransfersControl : Obligations.DecodeTransfersControl := by
  intro s hs hc
  refine ⟨_, execDecode_eq_next.mpr ⟨hs, hc, rfl⟩, ?_⟩
  rw [decodeStep_csumOk]
  refine ⟨fun h => ?_, fun h => ?_⟩
  · rw [decodeStep_of_checkSum h]
    exact ⟨rfl, rfl, rfl, rfl⟩
  · have hev : mismatchEvent (decodeFrame s) =
        .checksumMismatch s.ch (frameOf s.raw) (frameOf s.raw) (decodeFrame s).thc (decodeFrame s).sign := by
      rw [mismatchEvent]
      exact congrArg (DiagEvent.checksumMismatch s.ch (frameOf s.raw) · _ _) (joinBytes_bytesOf s.raw)
    rw [decodeStep_of_mismatch h]
    exact ⟨rfl, rfl, rfl, congrArg some hev, rfl⟩

/-- Settles O26: the packer gives the bytes back, and the sign bit compares the third with 128. -/
theorem decodeReturnsTheBytesSent : Obligations.DecodeReturnsTheBytesSent := by
  intro s b0 b1 b2 b3 b4 hs hc hraw
  obtain ⟨hb, hsign, -, -⟩ := decodeStep_registers s
  have hbytes : bytesOf s.raw = #v[b0, b1, b2, b3, b4] := by
    rw [hraw]
    exact bytesOf_bitsOf_joinBytes #v[b0, b1, b2, b3, b4]
  have hbit : signOf s.raw = decide (128 ≤ b2.toNat) := by
    rw [signOf_eq_decide, hbytes]
    rfl
  have hthc := toNat_correctedHigh_signOf s.raw
  rw [hbytes] at hb hthc
  refine ⟨_, execDecode_eq_next.mpr ⟨hs, hc, rfl⟩, hb, ?_, fun h => ?_, fun h => ?_⟩
  · rw [decodeStep_csumOk, hbytes]
    exact checkSumHolds_iff _
  · have h1 : signOf s.raw = true := hbit.trans (decide_eq_true h)
    refine ⟨h1, ?_, fun hm => ?_⟩
    · rw [decodeStep_thc, hbytes, hthc]
      show b2.toNat % 128 = b2.toNat - 128
      omega
    · rw [hsign, h1]
      exact readingTemperature_entryOf_neg _ hm
  · have h0 : signOf s.raw = false := hbit.trans (decide_eq_false h.not_ge)
    refine ⟨h0, ?_, ?_⟩
    · rw [decodeStep_thc, h0, hbytes]
      exact correctedHigh_false b2
    · rw [hsign, h0]
      exact readingTemperature_entryOf_nonneg _ _

end Sys2Proof.Machine
end

section
/-! SUPPORT. Proofs of the family `42_queue`: the producer's view, and that the consumer does not touch it; the queue operations on
the registers and on the list; what a pass of CYCLE leaves in the queues. -/

namespace Sys2Proof.Machine

/-! ## The view `State.producer` (R137, R190) -/

@[simp] theorem State.producer_tmr (s : State) : s.producer.tmr = s.tmr := rfl
@[simp] theorem State.producer_cph (s : State) : s.producer.cph = s.cph := rfl

/-- What rewrites channel `c` alone acts on the images of the channels under `g` as `f'` does. -/
theorem map_modify {g f f' : Channel → Channel} (h : ∀ k, g (f k) = f' (g k)) (l : List Channel) (c : Nat) :
    (l.modify c f).map g = (l.map g).modify c f' := by
  refine List.ext_getElem? fun d => ?_
  simp only [List.getElem?_map, List.getElem?_modify]
  cases l[d]? with
  | none => rfl
  | some k => by_cases hc : c = d <;> simp [hc, h]

/-- A change of a queue is not seen in the view of the lines. -/
theorem map_lineOnly_modify {f : Channel → Channel} (h : ∀ k, (f k).lineOnly = k.lineOnly) (l : List Channel) (c : Nat) :
    (l.modify c f).map Channel.lineOnly = l.map Channel.lineOnly := by
  rw [map_modify (f' := id) h, List.modify_id]

theorem Channel.push_lineOnly (k : Channel) (e : Entry) : (k.push e).lineOnly = k.lineOnly := rfl

theorem Channel.afterRead_lineOnly (q : List Entry) (k : Channel) : (k.afterRead q).lineOnly = k.lineOnly := by
  cases q <;> rfl

/-- What it takes to be the producer's view `y` of a state `x`. -/
theorem State.producer_eq {x y : State} (hrest : x.producer = { y with chans := x.chans.map Channel.lineOnly })
    (hchans : x.chans.map Channel.lineOnly = y.chans) : x.producer = y := by
  rw [hrest, hchans]

/-- A TRY_READ is not seen by the producer. -/
theorem State.producer_afterRead (s : State) (c : Nat) (q : List Entry) : (s.afterRead c q).producer = s.producer :=
  State.producer_eq rfl (map_lineOnly_modify (Channel.afterRead_lineOnly q) s.chans c)

theorem exec_tryRead_producer {s t : State} {c : Nat} (h : exec (.tryRead c) s = .next t) : t.producer = s.producer := by
  obtain ⟨k, hk, -⟩ := tryReadFrom_eq_next.mp h
  obtain rfl := Host.Outcome.next.inj ((execTryRead_of hk).symm.trans h)
  exact s.producer_afterRead c k.queue

/-! ## The operations of the sequencer on the view -/

theorem idleTick_producer (s : State) : (idleTick s).producer = idleTick s.producer :=
  State.producer_eq rfl (map_modify (fun _ => by rfl) s.chans s.ch)

theorem wakeTick_producer (s : State) : (wakeTick s).producer = wakeTick s.producer := by
  unfold wakeTick
  rw [State.producer_tmr]
  split_ifs
  · rfl
  · exact State.producer_eq rfl (map_modify (fun _ => by rfl) s.chans s.ch)
  · exact State.producer_eq rfl (map_modify (fun _ => by rfl) s.chans s.ch)

theorem ackTick_producer (s : State) : (ackTick s).producer = ackTick s.producer := by
  unfold ackTick
  simp only [apply_ite State.producer]
  rfl

theorem countHigh_producer (h : Nat) (s : State) : (countHigh h s).producer = countHigh h s.producer :=
  apply_ite State.producer ..

theorem storeBit_producer (s : State) : (storeBit s).producer = storeBit s.producer :=
  apply_ite State.producer ..

theorem captureRow_producer (v : Level) (s : State) : (captureRow v s).producer = captureRow v s.producer := by
  unfold captureRow
  rw [State.producer_cph]
  cases s.cph with
  | pre => exact apply_ite State.producer ..
  | low =>
    simp only [apply_ite State.producer, countHigh_producer]
    rfl
  | high =>
    simp only [apply_ite State.producer, countHigh_producer, storeBit_producer]
    rfl
  | idle | done | fail => rfl

theorem captureTick_producer (s : State) : (captureTick s).producer = captureTick s.producer :=
  captureRow_producer s.level s.sampled

theorem decodeStep_producer (s : State) : (decodeStep s).producer = decodeStep s.producer :=
  apply_ite State.producer ..

theorem sleepTick_producer (s : State) : (sleepTick s).producer = sleepTick s.producer :=
  apply_ite State.producer ..

/-- Whether PUBLISH stores its entry or drops it, the producer goes on to SLEEP (R131, R132). -/
theorem publishStep_producer (k : Channel) (s : State) : (publishStep k s).producer = enterSleep s.producer := by
  cases hf : k.full with
  | true => rw [publishStep_of_full hf]; rfl
  | false =>
    rw [publishStep_of_room hf]
    exact State.producer_eq rfl (map_lineOnly_modify (fun k => k.push_lineOnly s.entry) s.chans s.ch)

/-! ## The sequencer on two states with the same view -/

theorem chan_of_producer_eq {s s' : State} (h : s.producer = s'.producer) {k : Channel} (hk : s.chans[s.ch]? = some k) :
    ∃ k', s'.chans[s'.ch]? = some k' ∧ k'.oe = k.oe := by
  have hch : s.ch = s'.ch := (congrArg State.ch h :)
  have hchans : s.chans.map Channel.lineOnly = s'.chans.map Channel.lineOnly := (congrArg State.chans h :)
  have hl : (s'.chans.map Channel.lineOnly)[s'.ch]? = some k.lineOnly := by
    rw [← hchans, ← hch, List.getElem?_map, hk]
    rfl
  rw [List.getElem?_map] at hl
  obtain ⟨k', hk', e⟩ := Option.map_eq_some_iff.mp hl
  exact ⟨k', hk', (congrArg Channel.oe e :)⟩

theorem inputReady_of_producer_eq {s s' : State} (h : s.producer = s'.producer) (hin : s.inputReady) : s'.inputReady := by
  obtain ⟨k, hk, ho⟩ := hin
  obtain ⟨k', hk', ho'⟩ := chan_of_producer_eq h hk
  exact ⟨k', hk', ho'.trans ho⟩

/-- An operation that is one of the view takes states with the same view to states with the same view. -/
theorem producer_congr {op : State → State} (hop : ∀ s, (op s).producer = op s.producer) {s s' : State}
    (h : s.producer = s'.producer) : (op s').producer = (op s).producer := by
  rw [hop, ← h, hop]

/-- A step of the sequencer depends on the producer's view alone, and on the queue only for what that view leaves out (R137). -/
theorem exec_seq_producer {s s' t : State} (h : s.producer = s'.producer) (ht : exec s.seq.instr s = .next t) :
    ∃ t', exec s'.seq.instr s' = .next t' ∧ t'.producer = t.producer := by
  have hseq : s'.seq = s.seq := (congrArg State.seq h.symm :)
  rw [hseq]
  rcases exec_seq_cases ht with ⟨hs, ⟨k, hk⟩, rfl⟩ | ⟨hs, ⟨k, hk⟩, rfl⟩ | ⟨hs, hin, rfl⟩ | ⟨hs, hin, rfl⟩ | ⟨hs, hc, rfl⟩ |
    ⟨hs, hc, k, hk, rfl⟩ | ⟨hs, rfl⟩ <;> rw [hs] at hseq ⊢
  · obtain ⟨k', hk', -⟩ := chan_of_producer_eq h hk
    exact ⟨_, execIdle_eq_next.mpr ⟨hseq, ⟨k', hk'⟩, rfl⟩, producer_congr idleTick_producer h⟩
  · obtain ⟨k', hk', -⟩ := chan_of_producer_eq h hk
    exact ⟨_, execWake_eq_next.mpr ⟨hseq, ⟨k', hk'⟩, rfl⟩, producer_congr wakeTick_producer h⟩
  · exact ⟨_, execAck_eq_next.mpr ⟨hseq, inputReady_of_producer_eq h hin, rfl⟩, producer_congr ackTick_producer h⟩
  · exact ⟨_, execCapture_eq_next.mpr ⟨hseq, inputReady_of_producer_eq h hin, rfl⟩, producer_congr captureTick_producer h⟩
  · have hcap : s'.capOk = s.capOk := (congrArg State.capOk h.symm :)
    exact ⟨_, execDecode_eq_next.mpr ⟨hseq, hcap.trans hc, rfl⟩, producer_congr decodeStep_producer h⟩
  · have hcsum : s'.csumOk = s.csumOk := (congrArg State.csumOk h.symm :)
    obtain ⟨k', hk', -⟩ := chan_of_producer_eq h hk
    refine ⟨_, execPublish_eq_next.mpr ⟨hseq, hcsum.trans hc, k', hk', rfl⟩, ?_⟩
    rw [publishStep_producer, publishStep_producer, h]
  · exact ⟨_, execSleep_eq_next.mpr ⟨hseq, rfl⟩, producer_congr sleepTick_producer h⟩

/-- Settles O54: a TRY_READ by what it leaves, a step of the sequencer by the operation of its phase. -/
theorem consumerCannotDisturbTheProducer : Obligations.ConsumerCannotDisturbTheProducer :=
  ⟨fun _ _ _ h => exec_tryRead_producer h, fun _ _ _ h ht => exec_seq_producer h ht⟩

/-! ## The queue operations on the registers (R135) -/

theorem Channel.full_eq_false_iff_count (k : Channel) : k.full = false ↔ k.count.val < 2 := by
  rw [k.full_eq_false_iff, k.length_queue]

theorem Channel.empty_eq_false_iff_count (k : Channel) : k.empty = false ↔ 0 < k.count.val := by
  rw [← Bool.not_eq_true, k.empty_iff, ← ne_eq, ← List.length_pos_iff, k.length_queue]

section
variable {s : State} {k : Channel} (hs : s.seq = .publish) (hc : s.csumOk = true) (hk : s.chans[s.ch]? = some k)
include hs hc hk

theorem exec_publish_of_room (hf : k.full = false) : exec .publish s = .next { s with
    chans := s.chans.set s.ch (k.push s.entry), acc := true, seq := .sleep, tmr := 0 } := by
  refine execPublish_eq_next.mpr ⟨hs, hc, k, hk, ?_⟩
  rw [publishStep_of_room hf, ← modify_eq_set hk fun k => k.push s.entry]
  rfl

theorem exec_publish_of_full (hf : k.full = true) :
    exec .publish s = .next { s with acc := false, seq := .sleep, tmr := 0 } :=
  execPublish_eq_next.mpr ⟨hs, hc, k, hk, (publishStep_of_full hf s).symm⟩

end

theorem exec_tryRead_of_empty {s : State} {c : Nat} {k : Channel} (hk : s.chans[c]? = some k) (he : k.empty = true) :
    exec (.tryRead c) s = .next { s with rdPort := some none } := by
  refine tryReadFrom_eq_next.mpr ⟨k, hk, ?_⟩
  rw [if_pos he, k.head_eq, k.empty_iff.mp he]
  rfl

theorem exec_tryRead_of_entry {s : State} {c : Nat} {k : Channel} (hk : s.chans[c]? = some k) (he : k.empty = false) :
    exec (.tryRead c) s = .next { s with chans := s.chans.set c k.pop, rdPort := some (some k.mem[k.rd]) } := by
  refine tryReadFrom_eq_next.mpr ⟨k, hk, ?_⟩
  rw [if_neg (Bool.eq_false_iff.mp he), k.head_eq, Channel.queue_eq_head_cons he, ← modify_eq_set hk fun k => k.pop]
  rfl

/-- Settles O32: by the four rules above. -/
theorem queueRegisterRows : Obligations.QueueRegisterRows := by
  refine ⟨fun s k hs hc hk => ⟨fun hlt => ?_, fun htwo => ?_⟩, fun s c k hk => ⟨fun hpos => ?_, fun hzero => ?_⟩⟩
  · exact exec_publish_of_room hs hc hk (k.full_eq_false_iff_count.mpr hlt)
  · exact exec_publish_of_full hs hc hk (k.full_iff.mpr (k.length_queue.trans htwo))
  · exact exec_tryRead_of_entry hk (k.empty_eq_false_iff_count.mpr hpos)
  · exact exec_tryRead_of_empty hk (k.empty_iff.mpr (List.length_eq_zero_iff.mp (k.length_queue.trans hzero)))

/-! ## The queue operations on the list (R131, R132, R133) -/

/-- Settles O30: a push appends to the list. -/
theorem publishAppendsOrDrops : Obligations.PublishAppendsOrDrops := by
  intro s k hs hc hk hw
  refine ⟨fun hlt => ?_, fun hge => ?_⟩
  · have hf := k.full_eq_false_iff.mpr hlt
    exact ⟨k.push s.entry, exec_publish_of_room hs hc hk hf, Channel.push_queue hw hf s.entry, rfl, rfl,
      Channel.push_wf hw hf s.entry⟩
  · rw [← k.full_eq_false_iff, Bool.not_eq_false] at hge
    exact exec_publish_of_full hs hc hk hge

theorem exec_tryRead_of_absent {s : State} {c : Nat} (h : s.chans.length ≤ c) :
    exec (.tryRead c) s = .refused (.noSuchChannel c) := by
  show tryReadFrom s s c = _
  rw [tryReadFrom, List.getElem?_eq_none h]

/-- Settles O31: a pop takes the head off the list. -/
theorem tryReadTakesTheHead : Obligations.TryReadTakesTheHead := by
  refine fun s c => ⟨fun k hk hq => exec_tryRead_of_empty hk (k.empty_iff.mpr hq), fun k e q hk hq => ?_,
    exec_tryRead_of_absent⟩
  have he : k.empty = false := Bool.eq_false_iff.mpr fun he => by simp [k.empty_iff.mp he] at hq
  obtain ⟨rfl, rfl⟩ := List.cons.inj ((Channel.queue_eq_head_cons he).symm.trans hq)
  exact ⟨k.pop, exec_tryRead_of_entry hk he, rfl, rfl, rfl, fun hw => Channel.pop_wf hw he⟩

/-! ## What a pass of CYCLE leaves in the queues (R137, R172) -/

theorem State.queueOf_congr {s t : State} (h : t.chans = s.chans) (c : Nat) : t.queueOf c = s.queueOf c := by
  simp only [State.queueOf, h]

/-- A change of a line is none of a queue. -/
theorem State.onChan_queueOf {f : Channel → Channel} (h : ∀ k, (f k).queue = k.queue) (s : State) (c d : Nat) :
    (s.onChan c f).queueOf d = s.queueOf d := by
  by_cases hc : c = d
  · subst hc
    cases hk : s.chans[c]? with
    | none => simp [State.queueOf, hk]
    | some k => rw [State.onChan_queueOf_self hk, h, State.queueOf_of hk]
  · exact State.onChan_queueOf_ne hc s f

theorem idleTick_queueOf (s : State) (c : Nat) : (idleTick s).queueOf c = s.queueOf c :=
  State.onChan_queueOf (fun _ => by rfl) s s.ch c

theorem wakeAll_queueOf (s : State) (c : Nat) : (wakeAll s).queueOf c = s.queueOf c :=
  calc (wakeAll s).queueOf c
    _ = (s.onChan s.ch fun k => k.write Level.high).queueOf c := State.onChan_queueOf (fun _ => by rfl) _ s.ch c
    _ = s.queueOf c := State.onChan_queueOf (fun _ => by rfl) s s.ch c

/-- The queues, the channel at work, and whether a frame stands decoded: what no operation before DECODE changes. -/
def State.beforeDecode (s : State) : List Channel × Nat × Bool := (s.chans, s.ch, s.csumOk)

theorem ackTick_beforeDecode (s : State) : (ackTick s).beforeDecode = s.beforeDecode := by rw [ackTick_writes]; rfl

theorem captureTick_beforeDecode (s : State) : (captureTick s).beforeDecode = s.beforeDecode := by
  rw [captureTick_writes]; rfl

theorem whilePhase_beforeDecode {op : State → State} (h : ∀ s, (op s).beforeDecode = s.beforeDecode) (p : Phase) (n : Nat)
    (s : State) : (whilePhase p op n s).beforeDecode = s.beforeDecode :=
  whilePhase_keeps (P := fun u => u.beforeDecode = s.beforeDecode) (fun u hu _ => (h u).trans hu) n rfl

/-- `t` ends a pass that went on from `s`: it failed and left every queue, or it published on the channel of `s`, and the entry is
appended there or the queue was full (R172). -/
def passEnds (s t : State) : Prop :=
  (t.err ≠ .none ∧ ∀ c, t.queueOf c = s.queueOf c) ∨
  (t.err = .none ∧ (∀ c, t.queueOf c = s.queueOf c ++ if s.ch = c ∧ t.acc then [t.entry] else []) ∧
    (t.acc = false → (s.queueOf s.ch).length = 2))

theorem passEnds.of_same {s u t : State} (h : passEnds u t) (hch : u.ch = s.ch) (hq : ∀ c, u.queueOf c = s.queueOf c) :
    passEnds s t := by
  simpa only [passEnds, hch, hq] using h

theorem passEnds.markPass {s t : State} (h : passEnds s t) : passEnds s (markPass t) := h

theorem State.Inv.err_of_publish {s : State} (hi : s.Inv) (hs : s.seq = .publish) : s.err = .none := by
  have hf := hi.flags
  simp only [State.flagsMatch, hs] at hf
  obtain ⟨-, -, -, -, herr⟩ := hf
  exact herr

theorem State.Inv.csumOk_of_capture {s : State} (hi : s.Inv) (hs : s.seq = .capture) : s.csumOk = false := by
  have hf := hi.flags
  simp only [State.flagsMatch, hs] at hf
  obtain ⟨-, -, hcsum, -⟩ := hf
  exact hcsum

/-- A pass that sleeps without a good frame has failed (R151, R184). -/
theorem State.Inv.err_of_sleep {s : State} (hi : s.Inv) (hs : s.seq = .sleep) (hc : s.csumOk = false) : s.err ≠ .none := by
  intro he
  have hf := hi.flags
  simp [State.flagsMatch, hs, he, hc] at hf

theorem passEnds_of_sleep {s : State} (hi : s.Inv) (hs : s.seq = .sleep) (hc : s.csumOk = false) : passEnds s (sleepAll s) :=
  .inl ⟨hi.err_of_sleep hs hc, fun _ => rfl⟩

theorem passEnds_of_publish {s : State} {k : Channel} (hi : s.Inv) (hs : s.seq = .publish) (hk : s.chans[s.ch]? = some k) :
    passEnds s (sleepAll (publishStep k s)) := by
  have hq := publishStep_queueOf hs hk (hi.queues _ k hk)
  have hacc := publishStep_acc k s
  rw [publishStep_writes] at hq hacc ⊢
  refine .inr ⟨hi.err_of_publish hs, fun c => ?_, fun h => ?_⟩
  · refine (hq c).trans ?_
    simp only [published, hs, true_and]
    rfl
  · rw [State.queueOf_of hk, ← k.full_iff]
    exact Bool.not_eq_false' _ |>.mp (hacc.symm.trans h)

theorem decodeStep_csumOk_of_sleep {s : State} (h : (decodeStep s).seq = .sleep) : (decodeStep s).csumOk = false := by
  cases hc : checkSumHolds (bytesOf s.raw) with
  | true => simp [decodeStep_of_checkSum hc] at h
  | false => rw [decodeStep_csumOk, hc]

theorem decodeStep_ch (s : State) : (decodeStep s).ch = s.ch := by rw [decodeStep_writes]

/-- DECODE and PUBLISH, where the pass has come to them, end it; a pass that sleeps already must have failed. -/
theorem cycleTail_ends {s : State} (hi : s.Inv) (hs : s.underWay) (hz : s.seq = .sleep → s.csumOk = false)
    (hend : (cycleTail s).seq = .idle) : passEnds s (cycleTail s) := by
  have fromSleep {u : State} (hu : u.Inv) (h : u.seq = .sleep) (hc : u.csumOk = false) : passEnds u (cycleTail u) := by
    rw [cycleTail_of_sleep h]
    exact passEnds_of_sleep hu h hc
  have fromPublish {u : State} (hu : u.Inv) (h : u.seq = .publish) : passEnds u (cycleTail u) := by
    obtain ⟨k, hk⟩ := hu.exists_current
    rw [cycleTail_of_publish h hk]
    exact passEnds_of_publish hu h hk
  rcases hs with hs | hs | hs | hs
  · rw [cycleTail_of_capture hs] at hend
    exact nomatch hs.symm.trans hend
  · rw [cycleTail_of_decode hs]
    have hd := decodeStep_inv hi hs
    refine passEnds.of_same ?_ (decodeStep_ch s) (State.queueOf_congr (decodeStep_chans s))
    exact (decodeStep_seq s).elim (fromPublish hd) fun h => fromSleep hd h (decodeStep_csumOk_of_sleep h)
  · exact fromPublish hi hs
  · exact fromSleep hi hs (hz hs)

theorem whilePhase_of_ne {p : Phase} {s : State} (h : s.seq ≠ p) (op : State → State) (n : Nat) :
    whilePhase p op n s = s := by
  cases n with
  | zero => rfl
  | succ n => exact if_neg h

theorem cycleRest_ends {s : State} (hi : s.Inv) (hs : s.underWay) (hz : s.seq = .sleep → s.csumOk = false)
    (hend : (cycleRest s).seq = .idle) : passEnds s (cycleRest s) := by
  obtain ⟨hinv, hunder, -⟩ := captureAll_inv hi hs _ rfl
  have hsame := whilePhase_beforeDecode captureTick_beforeDecode .capture (captureTicksMax s) s
  simp only [State.beforeDecode, Prod.mk.injEq] at hsame
  obtain ⟨hchans, hch, hcsum⟩ := hsame
  refine passEnds.of_same (cycleTail_ends hinv hunder (fun hsleep => ?_) hend) hch (State.queueOf_congr hchans)
  by_cases hcap : s.seq = .capture
  · exact hcsum.trans (hi.csumOk_of_capture hcap)
  · rw [whilePhase_of_ne hcap] at hsleep ⊢
    exact hz hsleep

theorem cyclePass_ends {s : State} (hi : s.Inv) (hs : s.seq = .idle) (hend : (cyclePass s).seq = .idle) :
    passEnds s (cyclePass s) := by
  obtain ⟨hinv, hunder⟩ := ackAll_inv (wakeAll_inv (idleTick_inv hi hs) rfl) rfl
  have hsame := whilePhase_beforeDecode ackTick_beforeDecode .ack ackTicksMax (wakeAll (idleTick s))
  simp only [State.beforeDecode, Prod.mk.injEq] at hsame
  obtain ⟨hchans, hch, hcsum⟩ := hsame
  refine passEnds.of_same (cycleRest_ends hinv hunder (fun _ => hcsum) hend) hch fun c => ?_
  rw [State.queueOf_congr hchans, wakeAll_queueOf, idleTick_queueOf]

theorem cycleRest_of_sleep {s : State} (hs : s.seq = .sleep) : cycleRest s = sleepAll s := by
  rw [cycleRest, whilePhase_of_ne (by simp [hs]), cycleTail_of_sleep hs]

/-- A CYCLE that comes back to IDLE ends its pass, or found it in SLEEP (log 14). -/
theorem execCycle_ends {s t : State} (hi : s.Inv) (h : exec .cycle s = .next t) (hend : t.seq = .idle) :
    (s.seq ≠ .sleep ∧ passEnds s t) ∨ (s.seq = .sleep ∧ ∀ c, t.queueOf c = s.queueOf c) := by
  obtain ⟨-, ⟨hs, rfl⟩ | ⟨-, hc, rfl⟩⟩ := execCycle_eq_next.mp h
  · rw [markPass_seq] at hend
    exact .inl ⟨by simp [hs], (cyclePass_ends hi hs hend).markPass⟩
  · by_cases hs : s.seq = .sleep
    · refine .inr ⟨hs, fun c => ?_⟩
      rw [cycleRest_of_sleep hs]
      rfl
    · rw [markPass_seq] at hend
      exact .inl ⟨hs, (cycleRest_ends hi (hi.pass hc).2 (absurd · hs) hend).markPass⟩

/-- Settles O40: by how the CYCLE has ended. -/
theorem failedCycleLeavesTheQueues : Obligations.FailedCycleLeavesTheQueues := by
  intro s t hi h hend
  rcases execCycle_ends hi h hend with ⟨hs, ⟨herr, hq⟩ | ⟨herr, hq, hfull⟩⟩ | ⟨hs, hq⟩
  · exact ⟨fun _ => hq, fun he => absurd he herr, fun he => absurd he herr, fun he => absurd he herr⟩
  · refine ⟨fun hne => ?_, fun _ c hc => ?_, fun _ _ hacc => ?_, fun _ _ hacc => ⟨?_, hfull hacc⟩⟩
    · exact absurd hne (by simp [herr, hs])
    · simpa [hc.symm] using hq c
    · simpa [hacc] using hq s.ch
    · simpa [hacc] using hq s.ch
  · exact ⟨fun _ => hq, fun _ c _ => hq c, fun _ hne => absurd hs hne, fun _ hne => absurd hs hne⟩

end Sys2Proof.Machine
end

section
/-! SUPPORT. Proofs of the family `43_sequencer`: one tick of IDLE, WAKE, ACK and SLEEP, and ACK and SLEEP as a whole; the rounds of
the sequencer from IDLE to IDLE, and CYCLE as such a round; that every cycle ends, and what it leaves and delivers. -/

namespace Sys2Proof.Machine

/-! ## One tick of IDLE and of WAKE (R153, R154, R157) -/

/-- Settles O10: the entry actions rewrite the registers of channel `CH` alone. -/
theorem idleEntersWake : Obligations.IdleEntersWake := by
  intro s k hs hk
  refine execIdle_eq_next.mpr ⟨hs, ⟨k, hk⟩, ?_⟩
  rw [idleTick, enterWake, State.onChan, modify_eq_set hk]
  rfl

/-- Settles O11: the three rows of WAKE's table. -/
theorem wakeTickRows : Obligations.WakeTickRows := by
  intro s k hs hk
  have htick {t : State} (h : wakeTick s = t) : exec .wake s = .next t := execWake_eq_next.mpr ⟨hs, ⟨k, hk⟩, h.symm⟩
  exact ⟨fun h => htick (wakeTick_of_low h), fun h => htick (wakeTick_of_last h hk),
    fun h => htick (wakeTick_of_over h hk)⟩

/-- A tick of IDLE and a whole WAKE, as CYCLE takes them at once (R153, R157). -/
theorem runSeq_wakeAll {s : State} {k : Channel} (hs : s.seq = .idle) (hk : s.chans[s.ch]? = some k) :
    runSeq 20002 s = .next (wakeAll (idleTick s)) := by
  have hk' : (idleTick s).chans[s.ch]? = some ((k.setDirection true).write Level.low) :=
    getElem?_modify_eq_some.mpr ⟨k, hk, (if_pos rfl).symm⟩
  have hchans : (wakeAll (idleTick s)).chans = (idleTick s).chans.set s.ch { k with oe := false, out := Level.high } :=
    (List.modify_modify_eq ..).trans (modify_eq_set hk' _)
  obtain ⟨-, -, hrun⟩ := wakeSendsItsSymbol (idleTick s) _ rfl rfl hk' rfl
  rw [runSeq_idle hs hk]
  exact hrun.trans (congrArg (fun l => Host.Outcome.next { wakeAll (idleTick s) with chans := l }) hchans.symm)

/-! ## One tick of ACK (R161 to R164) -/

/-- `s` after one more poll: the sample is counted and the poll used up, whatever follows from it (log 2). -/
def State.polled (s : State) : State :=
  { s.sampled with acnt := countAfter s.ah s.level s.acnt, polls := s.polls + 1 }

theorem ackTick_of_above {s : State} (h : threshold s.ah < s.polled.acnt.toNat) :
    ackTick s = if s.ah then enterCapture s.polled else { s.polled with ah := true, polls := 0, acnt := 0 } := if_pos h

theorem ackTick_of_lastPoll {s : State} (h : s.polled.acnt.toNat ≤ threshold s.ah) (hp : s.polled.polls = 255) :
    ackTick s = raise (.acknowledgeTimeout s.ch s.ah) { s.polled with ackOk := false } :=
  (if_neg h.not_gt).trans (if_pos (congrArg BitVec.toNat hp))

theorem ackTick_of_poll {s : State} (h : s.polled.acnt.toNat ≤ threshold s.ah) (hp : s.polled.polls ≠ 255) :
    ackTick s = s.polled :=
  (if_neg h.not_gt).trans (if_neg fun e => hp (BitVec.eq_of_toNat_eq e))

/-- Settles O13: the rows of a poll, the count spelled out for each half. -/
theorem ackTickRows : Obligations.AckTickRows := by
  intro s a hs hi ha
  obtain rfl : a = s.polled.acnt := by
    rw [ha, State.polled, countAfter]
    cases s.ah <;> rfl
  have hthr : (if s.ah then 60 else 65) = threshold s.ah := rfl
  have htick {t : State} (h : ackTick s = t) : exec .ack s = .next t := execAck_eq_next.mpr ⟨hs, hi, h.symm⟩
  rw [hthr]
  refine ⟨fun h hah => htick ?_, fun h hah => htick ?_, fun h hp => htick ?_, fun h hp => htick ?_⟩
  · rw [ackTick_of_above h, if_neg (by simp [hah])]
    rfl
  · rw [ackTick_of_above h, if_pos hah]
    rfl
  · rw [ackTick_of_lastPoll h hp, ← hp]
    rfl
  · exact ackTick_of_poll h hp

/-! ## One half of ACK over any line (R161, R162, R163) -/

theorem levelCount_le (line : Nat → Level) (v : Level) (n : Nat) : levelCount line v n ≤ n := by
  induction n with
  | zero => exact le_refl 0
  | succ n ih =>
    rw [levelCount]
    split <;> omega

theorem levelCount_mono (line : Nat → Level) (v : Level) : Monotone (levelCount line v) :=
  monotone_nat_of_le_succ fun _ => Nat.le_add_right _ _

/-- How many of the next `n` samples have the level that the half of `s` counts. -/
def State.ackCount (s : State) : Nat → Nat := levelCount s.lineAhead s.ah

/-- `s`, at the entry of a half, after `n` polls of that half. -/
def State.acking (s : State) (n : Nat) : State :=
  { s with
    acnt := BitVec.ofNat 9 (s.ackCount n), polls := BitVec.ofNat 9 n, samples := s.samples.drop n, now := s.now + n }

theorem countAfter_ofNat (half v : Bool) (c : Nat) :
    countAfter half v (BitVec.ofNat 9 c) = BitVec.ofNat 9 (c + if v = half then 1 else 0) := by
  unfold countAfter wanted
  split
  · exact (BitVec.ofNat_add ..).symm
  · rfl

theorem acking_polled (s : State) (n : Nat) : (s.acking n).polled = s.acking (n + 1) := by
  have hlevel : (s.acking n).level = s.lineAhead n := level_of_sampledBy rfl rfl rfl
  have hcount : countAfter s.ah (s.lineAhead n) (BitVec.ofNat 9 (s.ackCount n)) = BitVec.ofNat 9 (s.ackCount (n + 1)) :=
    countAfter_ofNat ..
  have hpolls : BitVec.ofNat 9 n + 1 = BitVec.ofNat 9 (n + 1) := (BitVec.ofNat_add ..).symm
  simp only [State.polled, State.sampled, hlevel]
  simp only [State.acking, hcount, hpolls, List.tail_drop, Nat.add_assoc]

theorem toNat_acnt_acking (s : State) {n : Nat} (hn : n ≤ 255) : (s.acking n).acnt.toNat = s.ackCount n := by
  have hle : s.ackCount n ≤ n := levelCount_le ..
  exact (BitVec.toNat_ofNat ..).trans (Nat.mod_eq_of_lt (by omega))

theorem acking_polls_ne {s : State} {n : Nat} (hn : n < 255) : (s.acking n).polls ≠ 255 := by
  intro h
  have hmod : n % 512 = 255 := (BitVec.toNat_ofNat ..).symm.trans (congrArg BitVec.toNat h)
  omega

/-- Where a half that has succeeded at its `n`-th poll leaves `s`, the second half in CAPTURE (R164). -/
def State.ackPassed (s : State) (n : Nat) : State :=
  if s.ah then enterCapture (s.acking n) else { s.acking n with ah := true, polls := 0, acnt := 0 }

/-- Where a half that has used up its polls leaves `s` (R163). -/
def State.ackTimedOut (s : State) : State :=
  raise (.acknowledgeTimeout s.ch s.ah) { s.acking 255 with ackOk := false }

theorem ackTimedOut_of_half {s : State} {half : Bool} (h : s.ah = half) :
    s.ackTimedOut = raise (.acknowledgeTimeout s.ch half) { s.acking 255 with ackOk := false } := by
  rw [← h, State.ackTimedOut]

section
variable {s : State} (hs : s.seq = .ack) (hi : s.inputReady) (hp : s.polls = 0) (ha : s.acnt = 0)
include hs hi hp ha

/-- While the count stays at or below the threshold and polls are left, the half goes on. -/
theorem runSeq_acking (n : Nat) (hn : n < 255) (hc : s.ackCount n ≤ threshold s.ah) :
    runSeq n s = .next (s.acking n) := by
  induction n with
  | zero =>
    cases s
    cases hp
    cases ha
    rfl
  | succ n ih =>
    have hrun := ih (by omega) ((levelCount_mono _ _ (Nat.le_succ n)).trans hc)
    rw [runSeq_then_ack hrun hs hi, ackTick_of_poll, acking_polled]
    · rw [acking_polled, toNat_acnt_acking s hn.le]
      exact hc
    · rw [acking_polled]
      exact acking_polls_ne hn

/-- The poll that brings the count above the threshold (R161, R162). -/
theorem runSeq_ackPassed {n : Nat} (hn : n < 255) (hc : s.ackCount n ≤ threshold s.ah)
    (hc' : threshold s.ah < s.ackCount (n + 1)) : runSeq (n + 1) s = .next (s.ackPassed (n + 1)) := by
  rw [runSeq_then_ack (runSeq_acking hs hi hp ha n hn hc) hs hi, ackTick_of_above, acking_polled]
  · rfl
  · rw [acking_polled, toNat_acnt_acking s hn]
    exact hc'

/-- The last poll of a half that has not succeeded (R163). -/
theorem runSeq_ackTimedOut (hc : s.ackCount 255 ≤ threshold s.ah) : runSeq 255 s = .next s.ackTimedOut := by
  have hc' : s.ackCount 254 ≤ threshold s.ah := (levelCount_mono _ _ (Nat.le_succ 254)).trans hc
  have hrun := runSeq_acking hs hi hp ha 254 (by decide) hc'
  rw [runSeq_then_ack hrun hs hi, ackTick_of_lastPoll, acking_polled]
  · rfl
  · rw [acking_polled, toNat_acnt_acking s (le_refl 255)]
    exact hc
  · rw [acking_polled]
    rfl

/-- Every half ends: at the poll that brings its count above the threshold, or at its last one (R163). -/
theorem ackHalf_ends : ∃ n ≤ 255, (∀ j < n, runSeq j s = .next (s.acking j)) ∧
    ((threshold s.ah < n ∧ runSeq n s = .next (s.ackPassed n)) ∨ (n = 255 ∧ runSeq n s = .next s.ackTimedOut)) := by
  have hmono : Monotone s.ackCount := levelCount_mono _ _
  by_cases hc : s.ackCount 255 ≤ threshold s.ah
  · exact ⟨255, le_refl _, fun j hj => runSeq_acking hs hi hp ha j hj ((hmono hj.le).trans hc),
      .inr ⟨rfl, runSeq_ackTimedOut hs hi hp ha hc⟩⟩
  · have hex : ∃ n, threshold s.ah < s.ackCount n := ⟨255, Nat.lt_of_not_le hc⟩
    obtain ⟨n, hn, hleast⟩ : ∃ n, threshold s.ah < s.ackCount n ∧ ∀ j < n, s.ackCount j ≤ threshold s.ah :=
      ⟨Nat.find hex, Nat.find_spec hex, fun j hj => Nat.le_of_not_lt (Nat.find_min hex hj)⟩
    have hn255 : n ≤ 255 := Nat.le_of_not_lt fun h => hc (hleast 255 h)
    refine ⟨n, hn255, fun j hj => runSeq_acking hs hi hp ha j (by omega) (hleast j hj), .inl ⟨?_, ?_⟩⟩
    · exact hn.trans_le (levelCount_le ..)
    · cases n with
      | zero => exact absurd hn (Nat.not_lt_zero _)
      | succ n => exact runSeq_ackPassed hs hi hp ha hn255 (hleast n (Nat.lt_succ_self n)) hn

end

/-- Settles O14: the first half counts low samples against the threshold 65. -/
theorem ackFirstHalf : Obligations.AckFirstHalf := by
  intro s count hs hah hp ha hi hcount
  obtain rfl : count = s.ackCount := by rw [hcount, State.ackCount, hah]
  have hthr : threshold s.ah = 65 := by rw [hah]; rfl
  refine ⟨fun n hn hc => ?_, fun n hn hc hc' => ?_, fun hc => ?_⟩
  · exact runSeq_acking hs hi hp ha n hn (hc.trans_eq hthr.symm)
  · rw [runSeq_ackPassed hs hi hp ha hn (by omega) (by omega), State.ackPassed, if_neg (by simp [hah])]
    rfl
  · exact (runSeq_ackTimedOut hs hi hp ha (by omega)).trans (congrArg _ (ackTimedOut_of_half hah))

/-- Settles O15: the second half counts high samples against the threshold 60. -/
theorem ackSecondHalf : Obligations.AckSecondHalf := by
  intro s count hs hah hp ha hi hcount
  obtain rfl : count = s.ackCount := by rw [hcount, State.ackCount, hah]
  have hthr : threshold s.ah = 60 := by rw [hah]; rfl
  refine ⟨fun n hn hc => ?_, fun n hn hc hc' => ?_, fun hc => ?_⟩
  · exact runSeq_acking hs hi hp ha n hn (hc.trans_eq hthr.symm)
  · rw [runSeq_ackPassed hs hi hp ha hn (by omega) (by omega), State.ackPassed, if_pos hah, State.acking, hc']
    rfl
  · exact (runSeq_ackTimedOut hs hi hp ha (by omega)).trans (congrArg _ (ackTimedOut_of_half hah))

/-! ## A whole ACK (R164, R228) -/

/-- The outcomes of an ACK that ends in `t` after `n` ticks: CAPTURE is entered, or one of the halves has timed out. -/
def ackOutcome (ch n : Nat) (t : State) : Prop :=
  (∃ u, t = enterCapture u ∧ 127 ≤ n) ∨
  (∃ u, t = raise (.acknowledgeTimeout ch false) u ∧ u.ah = false ∧ n = 255) ∨
  (∃ u, t = raise (.acknowledgeTimeout ch true) u ∧ u.ah = true ∧ 321 ≤ n)

/-- Every ACK ends, its second half after a first half that has succeeded. -/
theorem ack_ends {s : State} (hs : s.seq = .ack) (hah : s.ah = false) (hp : s.polls = 0) (ha : s.acnt = 0)
    (hi : s.inputReady) : ∃ n ≤ 510, ∃ t, runSeq n s = .next t ∧ (t.now = s.now + n ∧ t.sleeps = s.sleeps) ∧
      (∀ j < n, ∃ u, runSeq j s = .next u ∧ u.seq = .ack) ∧ ackOutcome s.ch n t := by
  obtain ⟨m, hm, hfirst, ⟨hlow, hrun⟩ | ⟨rfl, hrun⟩⟩ := ackHalf_ends hs hi hp ha
  · rw [hah] at hlow
    rw [State.ackPassed, if_neg (by simp [hah])] at hrun
    obtain ⟨n, hn, hsecond, hend⟩ := ackHalf_ends (s := { s.acking m with ah := true, polls := 0, acnt := 0 }) hs
      (inputReady_congr hi rfl rfl) rfl rfl
    have hjoin := runSeq_add_of_next hrun
    have hbefore : ∀ j < m + n, ∃ u, runSeq j s = .next u ∧ u.seq = .ack := by
      intro j hj
      by_cases hjm : j < m
      · exact ⟨_, hfirst j hjm, hs⟩
      · obtain ⟨i, rfl⟩ := Nat.exists_eq_add_of_le (Nat.le_of_not_lt hjm)
        exact ⟨_, (hjoin i).trans (hsecond i (by omega)), hs⟩
    have hlow : 65 < m := hlow
    rcases hend with ⟨hhigh, hend⟩ | ⟨rfl, hend⟩
    · have hhigh : 60 < n := hhigh
      exact ⟨m + n, by omega, _, (hjoin n).trans hend, ⟨Nat.add_assoc .., rfl⟩, hbefore, .inl ⟨_, rfl, by omega⟩⟩
    · exact ⟨m + 255, by omega, _, (hjoin 255).trans hend, ⟨Nat.add_assoc .., rfl⟩, hbefore,
        .inr (.inr ⟨_, rfl, rfl, by omega⟩)⟩
  · rw [ackTimedOut_of_half hah] at hrun
    exact ⟨255, by omega, _, hrun, ⟨rfl, rfl⟩, fun j hj => ⟨_, hfirst j hj, hs⟩, .inr (.inl ⟨_, rfl, hah, rfl⟩)⟩

/-- Settles O16: by the outcome of the ACK. -/
theorem ackLastsWithinItsBudget : Obligations.AckLastsWithinItsBudget := by
  intro s hs hah hp ha hi
  obtain ⟨n, hn, t, hrun, ⟨hnow, -⟩, hbefore, hend⟩ := ack_ends hs hah hp ha hi
  refine ⟨n, t, hrun, hnow, hbefore, ?_⟩
  rcases hend with ⟨u, rfl, h127⟩ | ⟨u, rfl, hu, h255⟩ | ⟨u, rfl, hu, h321⟩
  · exact .inl ⟨rfl, rfl, h127, hn⟩
  · exact .inr (.inl ⟨rfl, rfl, hu, h255⟩)
  · exact .inr (.inr ⟨rfl, rfl, hu, h321, hn⟩)

/-! ## SLEEP (R170, R171) -/

theorem sleepDuration_ge (s : State) : 2000000 + s.cfg.interSensor ≤ sleepDuration s :=
  Nat.add_le_add_right (Nat.le_add_right ..) _

theorem sleepTick_of_lt {s : State} (h : s.tmr + 1 < sleepDuration s) : sleepTick s = { s.tick with tmr := s.tmr + 1 } :=
  if_neg (Nat.not_le_of_lt h)

theorem sleepTick_of_last {s : State} (h : s.tmr + 1 = sleepDuration s) : sleepTick s =
    { s.tick with tmr := s.tmr + 1, seq := .idle, ch := nextChannel s, sleeps := s.sleeps + 1, cycling := false } :=
  if_pos h.ge

/-- Settles O35: the two rows of SLEEP. -/
theorem sleepTickRows : Obligations.SleepTickRows := by
  intro s hs
  exact ⟨fun h => execSleep_eq_next.mpr ⟨hs, (sleepTick_of_lt h).symm⟩,
    fun h => execSleep_eq_next.mpr ⟨hs, (sleepTick_of_last h).symm⟩⟩

/-- Before its last tick a SLEEP counts. -/
theorem runSeq_asleep {s : State} (hs : s.seq = .sleep) (n : Nat) (hn : s.tmr + n < sleepDuration s) :
    runSeq n s = .next { s with tmr := s.tmr + n, now := s.now + n } := by
  induction n with
  | zero => rfl
  | succ n ih =>
    rw [runSeq_then_sleep (ih (by omega)) hs, sleepTick_of_lt hn]
    rfl

/-- What is left of a SLEEP, as CYCLE takes it at once. -/
theorem runSeq_sleepAll {s : State} (hs : s.seq = .sleep) (ht : s.tmr < sleepDuration s) :
    runSeq (sleepDuration s - s.tmr) s = .next (sleepAll s) := by
  obtain ⟨n, hn⟩ : ∃ n, sleepDuration s = s.tmr + n + 1 := ⟨sleepDuration s - s.tmr - 1, by omega⟩
  have hlast : s.tmr + n + 1 = sleepDuration { s with tmr := s.tmr + n, now := s.now + n } := hn.symm
  have hcount : sleepDuration s - s.tmr = n + 1 := by omega
  rw [hcount, runSeq_then_sleep (runSeq_asleep hs n (by omega)) hs, sleepTick_of_last hlast, sleepAll, hcount, hn]
  rfl

/-- Settles O36: the duration is that of the SLEEP's own draw. -/
theorem sleepLastsItsDuration : Obligations.SleepLastsItsDuration := by
  intro s hs ht
  have hge := sleepDuration_ge s
  refine ⟨sleepDuration s, sleepAll s, hge, fun e he => ?_, fun n hn => ?_, ?_, ?_⟩
  · rw [sleepDuration, he]
    rfl
  · have hrun := runSeq_asleep hs n (by rwa [ht, Nat.zero_add])
    rwa [ht, Nat.zero_add] at hrun
  · have hrun := runSeq_sleepAll hs (by omega)
    rwa [ht] at hrun
  · rw [sleepAll, ht]
    rfl

/-! ## One step of the sequencer in its round (R152, R170) -/

theorem wakeTick_seq (s : State) : (wakeTick s).seq = s.seq ∨ (wakeTick s).seq = .ack := by
  unfold wakeTick
  split
  · exact .inl rfl
  split
  · exact .inl rfl
  · exact .inr rfl

theorem ackTick_seq (s : State) : (ackTick s).seq = s.seq ∨ (ackTick s).seq = .capture ∨ (ackTick s).seq = .sleep := by
  unfold ackTick
  dsimp only
  split
  · split
    · exact .inr (.inl rfl)
    · exact .inl rfl
  split
  · exact .inr (.inr rfl)
  · exact .inl rfl

theorem countHigh_seq (h : Nat) (s : State) : (countHigh h s).seq = s.seq ∨ (countHigh h s).seq = .sleep := by
  unfold countHigh
  split
  · exact .inr rfl
  · exact .inl rfl

theorem storeBit_seq (s : State) : (storeBit s).seq = s.seq ∨ (storeBit s).seq = .decode := by
  unfold storeBit
  split
  · exact .inl rfl
  · exact .inr rfl

theorem captureTick_seq (s : State) :
    (captureTick s).seq = s.seq ∨ (captureTick s).seq = .decode ∨ (captureTick s).seq = .sleep := by
  cases hp : s.cph with
  | pre =>
    rw [captureTick_of_pre hp]
    split <;> exact .inl rfl
  | low =>
    rw [captureTick_of_low hp]
    split
    · exact (countHigh_seq 1 s.sampled).imp_right .inr
    split <;> exact .inl rfl
  | high =>
    rw [captureTick_of_high hp]
    split
    · exact (countHigh_seq _ s.sampled).imp_right .inr
    · exact (storeBit_seq s.sampled).imp_right .inl
  | idle | done | fail =>
    rw [captureTick_of_stopped (by simp [hp])]
    exact .inl rfl

/-- The end of a round (R170): the next channel's IDLE, with `TMR` and the tick count as given. -/
def State.roundEnd (s : State) (m n : Nat) : State :=
  { s with tmr := m, now := n, seq := .idle, ch := nextChannel s, sleeps := s.sleeps + 1, cycling := false }

theorem sleepTick_cases (s : State) : sleepTick s = { s.tick with tmr := s.tmr + 1 } ∨ ∃ m n, sleepTick s = s.roundEnd m n := by
  unfold sleepTick
  split
  · exact .inr ⟨_, _, rfl⟩
  · exact .inl rfl

/-- The fields that no step of a round moves before its end: the channel at work, and what the sequencer never writes. -/
def State.roundFields (s : State) : Nat × Params × List Turn × Nat × Option (Option Entry) × Nat × Bool :=
  (s.ch, s.cfg, s.turns, s.turnNo, s.rdPort, s.sleeps, s.cycling)

theorem wakeTick_roundFields (s : State) : (wakeTick s).roundFields = s.roundFields := by
  rw [State.roundFields, wakeTick_writes]
  rfl

theorem ackTick_roundFields (s : State) : (ackTick s).roundFields = s.roundFields := by
  rw [State.roundFields, ackTick_writes]
  rfl

theorem captureTick_roundFields (s : State) : (captureTick s).roundFields = s.roundFields := by
  rw [State.roundFields, captureTick_writes]
  rfl

theorem decodeStep_roundFields (s : State) : (decodeStep s).roundFields = s.roundFields := by
  rw [State.roundFields, decodeStep_writes]
  rfl

theorem publishStep_roundFields (k : Channel) (s : State) : (publishStep k s).roundFields = s.roundFields := by
  rw [State.roundFields, publishStep_writes]
  rfl

/-- `t` is a later state of the round of `s`: only the registers of channel `CH` have moved among those of the channels, and the
consumer's pointer not even there. -/
structure State.SameRound (s t : State) : Prop where
  fields : t.roundFields = s.roundFields
  chans : ∃ f : Channel → Channel, t.chans = s.chans.modify s.ch f ∧ ∀ k, s.chans[s.ch]? = some k → (f k).rd = k.rd

section
variable {s t : State} (h : s.SameRound t)
include h

theorem State.SameRound.ch_eq : t.ch = s.ch := congrArg (fun p => p.1) h.fields
theorem State.SameRound.cfg_eq : t.cfg = s.cfg := congrArg (fun p => p.2.1) h.fields
theorem State.SameRound.turns_eq : t.turns = s.turns := congrArg (fun p => p.2.2.1) h.fields
theorem State.SameRound.turnNo_eq : t.turnNo = s.turnNo := congrArg (fun p => p.2.2.2.1) h.fields
theorem State.SameRound.rdPort_eq : t.rdPort = s.rdPort := congrArg (fun p => p.2.2.2.2.1) h.fields
theorem State.SameRound.sleeps_eq : t.sleeps = s.sleeps := congrArg (fun p => p.2.2.2.2.2.1) h.fields
theorem State.SameRound.cycling_eq : t.cycling = s.cycling := congrArg (fun p => p.2.2.2.2.2.2) h.fields

theorem State.SameRound.sleepDuration_eq : sleepDuration t = sleepDuration s := by
  rw [sleepDuration, sleepDuration, h.cfg_eq, h.sleeps_eq]

theorem State.SameRound.trans {u : State} (h' : t.SameRound u) : s.SameRound u := by
  obtain ⟨hf, f, hst, hrd⟩ := h
  obtain ⟨hf', g, htu, hrd'⟩ := h'
  have hch : t.ch = s.ch := congrArg (fun p => p.1) hf
  rw [hch, hst] at htu
  rw [hch, hst] at hrd'
  refine ⟨hf'.trans hf, g ∘ f, htu.trans (List.modify_modify_eq ..), fun k hk => ?_⟩
  exact (hrd' (f k) (getElem?_modify_eq_some.mpr ⟨k, hk, (if_pos rfl).symm⟩)).trans (hrd k hk)

end

theorem State.SameRound.refl (s : State) : s.SameRound s := ⟨rfl, id, (List.modify_id ..).symm, fun _ _ => rfl⟩

/-- A step of the sequencer stays in its round, away from IDLE, or it is the last tick of a SLEEP (R152, R170). -/
theorem exec_seq_round {s t : State} (h : exec s.seq.instr s = .next t) :
    (t.seq ≠ .idle ∧ s.SameRound t) ∨ (s.seq = .sleep ∧ ∃ m n, t = s.roundEnd m n) := by
  have hchans : ∃ f : Channel → Channel,
      t.chans = s.chans.modify s.ch f ∧ ∀ k, s.chans[s.ch]? = some k → (f k).rd = k.rd := by
    obtain ⟨f, hf, hstep⟩ := exec_seq_chans h
    exact ⟨f, hf, fun k hk => (hstep k hk).frame.1⟩
  rcases exec_seq_cases h with ⟨hs, -, rfl⟩ | ⟨hs, -, rfl⟩ | ⟨hs, -, rfl⟩ | ⟨hs, -, rfl⟩ | ⟨hs, -, rfl⟩ |
    ⟨hs, -, k, -, rfl⟩ | ⟨hs, rfl⟩
  · exact .inl ⟨nofun, rfl, hchans⟩
  · refine .inl ⟨?_, wakeTick_roundFields s, hchans⟩
    rcases wakeTick_seq s with e | e <;> simp [e, hs]
  · refine .inl ⟨?_, ackTick_roundFields s, hchans⟩
    rcases ackTick_seq s with e | e | e <;> simp [e, hs]
  · refine .inl ⟨?_, captureTick_roundFields s, hchans⟩
    rcases captureTick_seq s with e | e | e <;> simp [e, hs]
  · refine .inl ⟨?_, decodeStep_roundFields s, hchans⟩
    rcases decodeStep_seq s with e | e <;> simp [e]
  · exact .inl ⟨by rw [publishStep_writes]; nofun, publishStep_roundFields k s, hchans⟩
  · rcases sleepTick_cases s with e | e
    · rw [e] at hchans ⊢
      exact .inl ⟨by simp [hs], rfl, hchans⟩
    · exact .inr ⟨hs, e⟩

/-- Settles O50: by the operation of the phase; the channel by `exec_seq_round`. -/
theorem transitionTable : Obligations.TransitionTable := by
  intro s t h
  refine ⟨?_, ?_⟩
  · rcases exec_seq_cases h with ⟨hs, -, rfl⟩ | ⟨hs, -, rfl⟩ | ⟨hs, -, rfl⟩ | ⟨hs, -, rfl⟩ | ⟨hs, -, rfl⟩ |
      ⟨hs, -, k, -, rfl⟩ | ⟨hs, rfl⟩
    · simp [hs, idleTick]
    · rcases wakeTick_seq s with e | e <;> simp [e, hs]
    · rcases ackTick_seq s with e | e | e <;> simp [e, hs]
    · rcases captureTick_seq s with e | e | e <;> simp [e, hs]
    · rcases decodeStep_seq s with e | e <;> simp [e, hs]
    · rw [publishStep_writes]
      simp [hs]
    · rcases sleepTick_cases s with e | ⟨m, n, e⟩ <;> simp [e, hs, State.roundEnd]
  · rcases exec_seq_round h with ⟨ht, hround⟩ | ⟨hs, m, n, rfl⟩
    · rw [if_neg fun hend => ht hend.2]
      exact hround.ch_eq
    · exact (if_pos ⟨hs, rfl⟩).symm

/-! ## Runs within a round

Only the end of a SLEEP comes to IDLE, and it is counted in `State.sleeps`. So a run that leaves that count as it is stays in its
round. -/

theorem runSeq_succ_eq_next {n : Nat} {s t : State} :
    runSeq (n + 1) s = .next t ↔ ∃ u, exec s.seq.instr s = .next u ∧ runSeq n u = .next t := by
  rw [runSeq]
  cases exec s.seq.instr s <;> simp

theorem runSeq_add_eq_next {m n : Nat} {s t : State} :
    runSeq (m + n) s = .next t ↔ ∃ u, runSeq m s = .next u ∧ runSeq n u = .next t := by
  refine ⟨fun h => ?_, fun ⟨u, hu, ht⟩ => (runSeq_add_of_next hu n).trans ht⟩
  induction m generalizing s with
  | zero => exact ⟨s, rfl, Nat.zero_add n ▸ h⟩
  | succ m ih =>
    obtain ⟨v, hv, hrun⟩ := runSeq_succ_eq_next.mp (Nat.succ_add m n ▸ h)
    obtain ⟨u, hu, ht⟩ := ih hrun
    exact ⟨u, runSeq_succ_eq_next.mpr ⟨v, hv, hu⟩, ht⟩

theorem runSeq_inv {n : Nat} {s t : State} (hi : s.Inv) (h : runSeq n s = .next t) : t.Inv := by
  induction n generalizing s with
  | zero => cases h; exact hi
  | succ n ih =>
    obtain ⟨u, hu, ht⟩ := runSeq_succ_eq_next.mp h
    exact ih (exec_inv hi hu) ht

theorem runSeq_sleeps_le {n : Nat} {s t : State} (h : runSeq n s = .next t) : s.sleeps ≤ t.sleeps := by
  induction n generalizing s with
  | zero => cases h; exact le_refl _
  | succ n ih =>
    obtain ⟨u, hu, ht⟩ := runSeq_succ_eq_next.mp h
    refine le_trans ?_ (ih ht)
    rcases exec_seq_round hu with ⟨-, hround⟩ | ⟨-, i, j, rfl⟩
    · exact hround.sleeps_eq.ge
    · exact Nat.le_succ _

/-- A run in which no SLEEP comes to its end. -/
theorem runSeq_sameRound {n : Nat} {s t : State} (h : runSeq n s = .next t) (hz : t.sleeps = s.sleeps) :
    s.SameRound t ∧ (0 < n → t.seq ≠ .idle) := by
  induction n generalizing s with
  | zero => cases h; exact ⟨.refl _, nofun⟩
  | succ n ih =>
    obtain ⟨u, hu, ht⟩ := runSeq_succ_eq_next.mp h
    have hle := runSeq_sleeps_le ht
    rcases exec_seq_round hu with ⟨hidle, hround⟩ | ⟨-, i, j, rfl⟩
    · obtain ⟨hround', hpos⟩ := ih ht (hz.trans hround.sleeps_eq.symm)
      refine ⟨hround.trans hround', fun _ => ?_⟩
      rcases Nat.eq_zero_or_pos n with rfl | hn
      · cases ht
        exact hidle
      · exact hpos hn
    · exact absurd (hz.symm.trans_ge hle) (Nat.not_succ_le_self _)

/-- The states strictly between `s` and its `n`-th successor are not in IDLE. -/
def State.awayFor (s : State) (n : Nat) : Prop := ∀ j, 0 < j → j < n → ∃ u, runSeq j s = .next u ∧ u.seq ≠ .idle

theorem State.awayFor.mono {s : State} {m n : Nat} (h : s.awayFor n) (hle : m ≤ n) : s.awayFor m :=
  fun j hpos hj => h j hpos (hj.trans_le hle)

theorem awayFor_of_sameSleeps {n : Nat} {s t : State} (h : runSeq n s = .next t) (hz : t.sleeps = s.sleeps) :
    s.awayFor (n + 1) := by
  intro j hpos hj
  obtain ⟨i, rfl⟩ := Nat.exists_eq_add_of_le (Nat.le_of_lt_succ hj)
  obtain ⟨u, hu, ht⟩ := runSeq_add_eq_next.mp h
  have hz' : u.sleeps = s.sleeps := Nat.le_antisymm (hz ▸ runSeq_sleeps_le ht) (runSeq_sleeps_le hu)
  exact ⟨u, hu, (runSeq_sameRound hu hz').2 hpos⟩

/-- Coming back to IDLE happens at one step only. -/
theorem le_of_awayFor {m n : Nat} {s t : State} (h : s.awayFor m) (hn : 0 < n) (ht : runSeq n s = .next t)
    (hidle : t.seq = .idle) : m ≤ n := by
  refine Nat.le_of_not_lt fun hlt => ?_
  obtain ⟨u, hu, hne⟩ := h n hn hlt
  obtain rfl := Host.Outcome.next.inj (hu.symm.trans ht)
  exact hne hidle

/-! ## Passes (R172) -/

/-- `n` steps lead from `s` to `t` within one round, or, where `t` is in IDLE, to the end of that round. -/
def State.passesTo (s : State) (n : Nat) (t : State) : Prop :=
  runSeq n s = .next t ∧ t.sleeps = s.sleeps + if t.seq = .idle then 1 else 0

theorem State.passesTo_of_run {m n : Nat} {s t u : State} (h : runSeq m s = .next t) (hz : t.sleeps = s.sleeps)
    (h' : t.passesTo n u) : s.passesTo (m + n) u :=
  ⟨(runSeq_add_of_next h n).trans h'.1, hz ▸ h'.2⟩

/-- The last step of a pass that is over is the end of its SLEEP. -/
theorem State.passesTo.of_idle {n : Nat} {s t : State} (h : s.passesTo n t) (ht : t.seq = .idle) :
    ∃ m u, n = m + 1 ∧ runSeq m s = .next u ∧ s.SameRound u ∧ ∃ i j, t = u.roundEnd i j := by
  obtain ⟨hrun, hz⟩ := h
  rw [if_pos ht] at hz
  cases n with
  | zero =>
    cases hrun
    exact absurd hz (Nat.succ_ne_self _).symm
  | succ m =>
    obtain ⟨u, hu, hlast⟩ := runSeq_add_eq_next.mp hrun
    obtain ⟨t', hexec, ht'⟩ := runSeq_succ_eq_next.mp hlast
    cases ht'
    rcases exec_seq_round hexec with ⟨hne, -⟩ | ⟨-, i, j, rfl⟩
    · exact absurd ht hne
    · exact ⟨m, u, rfl, hu, (runSeq_sameRound hu (Nat.succ.inj hz)).1, i, j, rfl⟩

theorem State.passesTo.of_not_idle {n : Nat} {s t : State} (h : s.passesTo n t) (ht : t.seq ≠ .idle) :
    t.sleeps = s.sleeps ∧ s.SameRound t := by
  obtain ⟨hrun, hz⟩ := h
  rw [if_neg ht] at hz
  exact ⟨hz, (runSeq_sameRound hrun hz).1⟩

theorem State.passesTo.awayFor {n : Nat} {s t : State} (h : s.passesTo n t) : s.awayFor n := by
  by_cases ht : t.seq = .idle
  · obtain ⟨m, u, rfl, hu, hround, -⟩ := h.of_idle ht
    exact awayFor_of_sameSleeps hu hround.sleeps_eq
  · exact (awayFor_of_sameSleeps h.1 (h.of_not_idle ht).1).mono (Nat.le_succ n)

/-- A pass comes back to IDLE at one step and in one state. -/
theorem State.passesTo.unique {m n : Nat} {s t u : State} (h : s.passesTo n t) (ht : t.seq = .idle) (haway : s.awayFor m)
    (hm : 0 < m) (hu : runSeq m s = .next u) (hidle : u.seq = .idle) : m = n ∧ u = t := by
  obtain ⟨n', -, hn, -⟩ := h.of_idle ht
  obtain rfl : m = n := Nat.le_antisymm (le_of_awayFor haway (by omega) h.1 ht) (le_of_awayFor h.awayFor hm hu hidle)
  exact ⟨rfl, Host.Outcome.next.inj (hu.symm.trans h.1)⟩

/-! ## The pieces of CYCLE are passes (R172) -/

theorem State.Inv.exec_ack {s : State} (hi : s.Inv) (hs : s.seq = .ack) :
    exec s.seq.instr s = .next (ackTick s) := by
  rw [hs]
  exact execAck_eq_next.mpr ⟨hs, hi.inputReady (by simp [hs]), rfl⟩

theorem State.Inv.exec_capture {s : State} (hi : s.Inv) (hs : s.seq = .capture) :
    exec s.seq.instr s = .next (captureTick s) := by
  rw [hs]
  exact execCapture_eq_next.mpr ⟨hs, hi.inputReady (by simp [hs]), rfl⟩

theorem whilePhase_sleeps {op : State → State} (h : ∀ s, (op s).sleeps = s.sleeps) (p : Phase) (n : Nat) (s : State) :
    (whilePhase p op n s).sleeps = s.sleeps :=
  whilePhase_keeps (P := fun u => u.sleeps = s.sleeps) (fun u hu _ => (h u).trans hu) n rfl

theorem ackTick_sleeps (s : State) : (ackTick s).sleeps = s.sleeps := by rw [ackTick_writes]

theorem captureTick_sleeps (s : State) : (captureTick s).sleeps = s.sleeps := by rw [captureTick_writes]

section
variable {s : State} (hi : s.Inv)
include hi

theorem passesTo_sleepAll (hs : s.seq = .sleep) : s.passesTo (sleepDuration s - s.tmr) (sleepAll s) :=
  ⟨runSeq_sleepAll hs (hi.sleep hs), rfl⟩

theorem passesTo_cycleTail (hs : s.underWay) : ∃ n, s.passesTo n (cycleTail s) := by
  have fromSleep {u : State} (hu : u.Inv) (h : u.seq = .sleep) : ∃ n, u.passesTo n (cycleTail u) := by
    rw [cycleTail_of_sleep h]
    exact ⟨_, passesTo_sleepAll hu h⟩
  have fromPublish {u : State} (hu : u.Inv) (h : u.seq = .publish) : ∃ n, u.passesTo n (cycleTail u) := by
    obtain ⟨k, hk⟩ := hu.exists_current
    have hrun : runSeq 1 u = .next (publishStep k u) := runSeq_publish h (hu.csumOk_of_publish h) hk 0
    rw [cycleTail_of_publish h hk]
    exact ⟨_, State.passesTo_of_run hrun (by rw [publishStep_writes])
      (passesTo_sleepAll (publishStep_inv hu h hk) (by rw [publishStep_writes]))⟩
  rcases hs with hs | hs | hs | hs
  · rw [cycleTail_of_capture hs]
    exact ⟨0, rfl, by simp [hs]⟩
  · have hrun : runSeq 1 s = .next (decodeStep s) := runSeq_decode hs (hi.capOk_of_decode hs) 0
    have hd := decodeStep_inv hi hs
    rw [cycleTail_of_decode hs]
    obtain ⟨n, hn⟩ := (decodeStep_seq s).elim (fromPublish hd) (fromSleep hd)
    exact ⟨_, State.passesTo_of_run hrun (by rw [decodeStep_writes]) hn⟩
  · exact fromPublish hi hs
  · exact fromSleep hi hs

/-- What is left of a pass from CAPTURE on takes a step at least where CAPTURE is not over. -/
theorem passesTo_cycleRest (hs : s.underWay) : ∃ n, s.passesTo n (cycleRest s) ∧ (s.seq = .capture → 0 < n) := by
  have hmax : 0 < captureTicksMax s := Nat.add_pos_left (Nat.succ_pos _) _
  obtain ⟨m, -, hrun, -, -, hend⟩ :=
    runSeq_whilePhase (fun _ => State.Inv.exec_capture) (fun _ => captureTick_inv) (captureTicksMax s) hi
  obtain ⟨hinv, hunder, -⟩ := captureAll_inv hi hs _ rfl
  obtain ⟨n, hn⟩ := passesTo_cycleTail hinv hunder
  refine ⟨m + n, State.passesTo_of_run hrun (whilePhase_sleeps captureTick_sleeps ..) hn, fun hcap => ?_⟩
  rcases Nat.eq_zero_or_pos m with rfl | hm
  · exact absurd (Host.Outcome.next.inj hrun ▸ hcap) (hend hmax)
  · exact Nat.add_pos_left hm n

theorem passesTo_cyclePass (hs : s.seq = .idle) : ∃ n, s.passesTo n (cyclePass s) := by
  obtain ⟨k, hk⟩ := hi.exists_current
  have hwake : (wakeAll (idleTick s)).Inv := wakeAll_inv (idleTick_inv hi hs) rfl
  obtain ⟨m, -, hrun, -⟩ := runSeq_whilePhase (fun _ => State.Inv.exec_ack) (fun _ => ackTick_inv) ackTicksMax hwake
  obtain ⟨hinv, hunder⟩ := ackAll_inv hwake rfl
  obtain ⟨n, hn, -⟩ := passesTo_cycleRest hinv hunder
  exact ⟨_, State.passesTo_of_run (runSeq_wakeAll hs hk) rfl
    (State.passesTo_of_run hrun (whilePhase_sleeps ackTick_sleeps ..) hn)⟩

/-- A step of CYCLE is a pass, and then the mark. -/
theorem execCycle_passes {t : State} (h : exec .cycle s = .next t) : ∃ n v, 0 < n ∧ s.passesTo n v ∧ t = markPass v ∧
    (v.seq ≠ .idle → v.seq = .capture ∧ v.cfg.highCeil = none) := by
  obtain ⟨-, ⟨hs, rfl⟩ | ⟨-, hc, rfl⟩⟩ := execCycle_eq_next.mp h
  · obtain ⟨n, hn⟩ := passesTo_cyclePass hi hs
    refine ⟨n, _, Nat.pos_of_ne_zero ?_, hn, rfl, (cyclePass_inv hi hs).2⟩
    rintro rfl
    have hsame : s = cyclePass s := Host.Outcome.next.inj hn.1
    obtain ⟨m, -, hm, -⟩ := hn.of_idle (hsame ▸ hs)
    exact nomatch hm
  · have hunder := (hi.pass hc).2
    obtain ⟨n, hn, hpos⟩ := passesTo_cycleRest hi hunder
    have hend := (cycleRest_inv hi hunder).2
    refine ⟨n, _, Nat.pos_of_ne_zero ?_, hn, rfl, hend⟩
    rintro rfl
    have hsame : s = cycleRest s := Host.Outcome.next.inj hn.1
    have hidle : s.seq ≠ .idle := by rcases hunder with e | e | e | e <;> simp [e]
    exact absurd (hpos (hsame ▸ (hend (hsame ▸ hidle)).1)) (lt_irrefl 0)

theorem execCycle_completes (hs : s.seq = .idle ∨ s.cycling = true) : ∃ t, exec .cycle s = .next t := by
  have hk := hi.exists_current
  by_cases h : s.seq = .idle
  · exact ⟨_, execCycle_eq_next.mpr ⟨hk, .inl ⟨h, rfl⟩⟩⟩
  · exact ⟨_, execCycle_eq_next.mpr ⟨hk, .inr ⟨h, hs.resolve_left h, rfl⟩⟩⟩

end

theorem State.passesTo.markPass_of_idle {n : Nat} {s v : State} (h : s.passesTo n v) (hv : v.seq = .idle) :
    markPass v = v := by
  obtain ⟨m, u, -, -, -, i, j, rfl⟩ := h.of_idle hv
  rfl

theorem State.passesTo.ch_of_idle {n : Nat} {s t : State} (h : s.passesTo n t) (ht : t.seq = .idle) :
    t.ch = nextChannel s := by
  obtain ⟨m, u, -, -, hround, i, j, rfl⟩ := h.of_idle ht
  show (u.ch + 1) % u.cfg.nch = _
  rw [hround.ch_eq, hround.cfg_eq]
  rfl

/-- The mark is all that a step of CYCLE adds to its pass, and only where the pass is not over. -/
theorem State.passesTo.eq_unmarked {n : Nat} {s v : State} (h : s.passesTo n v) :
    v = if (markPass v).seq = .idle then markPass v else { markPass v with cycling := s.cycling } := by
  by_cases hv : v.seq = .idle
  · rw [h.markPass_of_idle hv, if_pos hv]
  · rw [markPass_seq, if_neg hv, ← (h.of_not_idle hv).2.cycling_eq]
    rfl

/-- What a pass, over or not, leaves of the channels and of what the sequencer never writes. -/
theorem State.passesTo.frame {n : Nat} {s t : State} (h : s.passesTo n t) :
    t.cfg = s.cfg ∧ t.turns = s.turns ∧ t.turnNo = s.turnNo ∧ t.rdPort = s.rdPort ∧
      ∃ f : Channel → Channel, t.chans = s.chans.modify s.ch f ∧ ∀ k, s.chans[s.ch]? = some k → (f k).rd = k.rd := by
  by_cases ht : t.seq = .idle
  · obtain ⟨m, u, -, -, hround, i, j, rfl⟩ := h.of_idle ht
    exact ⟨hround.cfg_eq, hround.turns_eq, hround.turnNo_eq, hround.rdPort_eq, hround.chans⟩
  · have hround := (h.of_not_idle ht).2
    exact ⟨hround.cfg_eq, hround.turns_eq, hround.turnNo_eq, hround.rdPort_eq, hround.chans⟩

/-- Settles O37: the pass of the step, without its mark. -/
theorem cycleIsOnePass : Obligations.CycleIsOnePass := by
  intro s hi hs
  obtain ⟨t, ht⟩ := execCycle_completes hi hs
  obtain ⟨n, v, hpos, hpass, rfl, hend⟩ := execCycle_passes hi ht
  refine ⟨n, _, hpos, ht, ?_, hpass.awayFor, fun hceil => ?_, fun hne => ⟨(hend hne).1, decide_eq_true hne⟩⟩
  · rw [← hpass.eq_unmarked]
    exact hpass.1
  · by_contra hne
    exact hceil (hpass.frame.1 ▸ (hend hne).2)

/-! ## The mark of a pass under way (log 14) -/

/-- `s` with the mark of a CYCLE under way as given. -/
def markedAs (c : Bool) (s : State) : State := { s with cycling := c }

theorem wakeTick_marked (c : Bool) (s : State) : markedAs c (wakeTick s) = wakeTick (markedAs c s) := by
  unfold wakeTick
  simp only [apply_ite (markedAs c)]
  rfl

theorem ackTick_marked (c : Bool) (s : State) : markedAs c (ackTick s) = ackTick (markedAs c s) := by
  unfold ackTick
  simp only [apply_ite (markedAs c)]
  rfl

theorem countHigh_marked (c : Bool) (h : Nat) (s : State) : markedAs c (countHigh h s) = countHigh h (markedAs c s) :=
  apply_ite (markedAs c) ..

theorem storeBit_marked (c : Bool) (s : State) : markedAs c (storeBit s) = storeBit (markedAs c s) :=
  apply_ite (markedAs c) ..

theorem captureRow_marked (c : Bool) (v : Level) (s : State) : markedAs c (captureRow v s) = captureRow v (markedAs c s) := by
  have hp : (markedAs c s).cph = s.cph := rfl
  unfold captureRow
  rw [hp]
  cases s.cph with
  | pre => exact apply_ite (markedAs c) ..
  | low =>
    simp only [apply_ite (markedAs c), countHigh_marked]
    rfl
  | high =>
    simp only [apply_ite (markedAs c), countHigh_marked, storeBit_marked]
    rfl
  | idle | done | fail => rfl

theorem captureTick_marked (c : Bool) (s : State) : markedAs c (captureTick s) = captureTick (markedAs c s) :=
  captureRow_marked c s.level s.sampled

theorem decodeStep_marked (c : Bool) (s : State) : markedAs c (decodeStep s) = decodeStep (markedAs c s) :=
  apply_ite (markedAs c) ..

theorem publishStep_marked (c : Bool) (k : Channel) (s : State) :
    markedAs c (publishStep k s) = publishStep k (markedAs c s) :=
  apply_ite (markedAs c) ..

/-- The end of a SLEEP takes the mark away, whatever it was; a tick before it keeps it. -/
theorem sleepTick_marked (c : Bool) {s : State} (hs : s.seq = .sleep) :
    sleepTick (markedAs c s) = if (sleepTick s).seq = .idle then sleepTick s else markedAs c (sleepTick s) := by
  have hd : sleepDuration (markedAs c s) = sleepDuration s := rfl
  have ht : (markedAs c s).tmr = s.tmr := rfl
  unfold sleepTick
  rw [hd, ht]
  split
  · rfl
  · exact (if_neg (by simp [hs])).symm

/-- The mark steers no step of the sequencer from where a pass is under way. -/
theorem exec_seq_marked {s t : State} (h : exec s.seq.instr s = .next t) (hs : s.seq ≠ .idle) (c : Bool) :
    exec s.seq.instr (markedAs c s) = .next (if t.seq = .idle then t else markedAs c t) := by
  by_cases hz : s.seq = .sleep
  · rw [hz] at h ⊢
    obtain ⟨-, rfl⟩ := execSleep_eq_next.mp h
    exact execSleep_eq_next.mpr ⟨hz, (sleepTick_marked c hz).symm⟩
  · have ht : t.seq ≠ .idle := ((exec_seq_round h).resolve_right fun ⟨hz', _⟩ => hz hz').1
    rw [if_neg ht]
    rcases exec_seq_cases h with ⟨hp, -⟩ | ⟨hp, hk, rfl⟩ | ⟨hp, hin, rfl⟩ | ⟨hp, hin, rfl⟩ | ⟨hp, hc, rfl⟩ |
      ⟨hp, hc, k, hk, rfl⟩ | ⟨hp, -⟩
    · exact absurd hp hs
    · rw [hp]; exact execWake_eq_next.mpr ⟨hp, hk, wakeTick_marked c s⟩
    · rw [hp]; exact execAck_eq_next.mpr ⟨hp, hin, ackTick_marked c s⟩
    · rw [hp]; exact execCapture_eq_next.mpr ⟨hp, hin, captureTick_marked c s⟩
    · rw [hp]; exact execDecode_eq_next.mpr ⟨hp, hc, decodeStep_marked c s⟩
    · rw [hp]; exact execPublish_eq_next.mpr ⟨hp, hc, k, hk, publishStep_marked c k s⟩
    · exact absurd hp hz

/-- So a pass goes on with the mark as without it. -/
theorem runSeq_marked {n : Nat} {s t : State} (h : runSeq n s = .next t) (hs : s.seq ≠ .idle) (haway : s.awayFor n)
    (c : Bool) : runSeq n (markedAs c s) = .next (if t.seq = .idle then t else markedAs c t) := by
  induction n generalizing t with
  | zero =>
    cases h
    rw [if_neg hs]
    rfl
  | succ n ih =>
    obtain ⟨u, hu, hlast⟩ := runSeq_add_eq_next.mp h
    have hne : u.seq ≠ .idle := by
      rcases Nat.eq_zero_or_pos n with rfl | hn
      · cases hu
        exact hs
      · obtain ⟨u', hu', hne⟩ := haway n hn (Nat.lt_succ_self n)
        exact Host.Outcome.next.inj (hu.symm.trans hu') ▸ hne
    have hrun := ih hu (haway.mono (Nat.le_succ n))
    rw [if_neg hne] at hrun
    obtain ⟨t', hexec, ht'⟩ := runSeq_succ_eq_next.mp hlast
    cases ht'
    exact (runSeq_succ_right hrun).trans (exec_seq_marked hexec hne c)

theorem State.awayFor.marked {n : Nat} {s : State} (h : s.awayFor n) (hs : s.seq ≠ .idle) (c : Bool) :
    (markedAs c s).awayFor n := by
  intro j hpos hj
  obtain ⟨u, hu, hne⟩ := h j hpos hj
  have hrun := runSeq_marked hu hs (h.mono hj.le) c
  rw [if_neg hne] at hrun
  exact ⟨_, hrun, hne⟩

theorem State.awayFor.shift {m n : Nat} {s t : State} (h : s.awayFor (m + n)) (ht : runSeq m s = .next t) :
    t.awayFor n := by
  intro j hpos hj
  obtain ⟨u, hu, hne⟩ := h (m + j) (by omega) (by omega)
  exact ⟨u, (runSeq_add_of_next ht j).symm.trans hu, hne⟩

/-- Settles O38: by recursion on the steps of the pass; a step of CYCLE that leaves it under way has taken some of them. -/
theorem cycleEndsWhereThePassEnds : Obligations.CycleEndsWhereThePassEnds := by
  intro s u m
  induction m using Nat.strongRecOn generalizing s with
  | ind m ih =>
    intro hi hs hm hu hidle haway
    obtain ⟨t, ht⟩ := execCycle_completes hi hs
    obtain ⟨n, v, hn, hpass, rfl, hend⟩ := execCycle_passes hi ht
    by_cases hv : v.seq = .idle
    · obtain ⟨-, rfl⟩ := hpass.unique hv haway hm hu hidle
      exact ⟨1, Nat.one_pos, by rw [runCycle_succ_of_next ht, hpass.markPass_of_idle hv]; rfl⟩
    · have hle : n ≤ m := le_of_awayFor hpass.awayFor hm hu hidle
      have hne : n ≠ m := by
        rintro rfl
        exact hv (Host.Outcome.next.inj (hpass.1.symm.trans hu) ▸ hidle)
      obtain ⟨i, rfl⟩ := Nat.exists_eq_add_of_le hle
      have hmark : markPass v = markedAs true v := by rw [markPass_eq, if_neg hv]; rfl
      have hrest : v.awayFor i := State.awayFor.shift haway hpass.1
      have hrun := runSeq_marked ((runSeq_add_of_next hpass.1 i).symm.trans hu) hv hrest true
      rw [if_pos hidle] at hrun
      obtain ⟨k, -, hk⟩ := ih i (by omega) (markPass v) (execCycle_inv hi ht) (.inr (decide_eq_true hv)) (by omega)
        (hmark ▸ hrun) hidle (hmark ▸ hrest.marked hv true)
      exact ⟨k + 1, Nat.succ_pos k, (runCycle_succ_of_next ht).trans hk⟩

/-! ## What CYCLE leaves (R172, R190) -/

/-- Settles O41: the frame of its pass; outside WAKE every line is released. -/
theorem cycleLeavesTheRest : Obligations.CycleLeavesTheRest := by
  intro s t hi h
  have hinv := execCycle_inv hi h
  obtain ⟨n, v, -, hpass, rfl, hend⟩ := execCycle_passes hi h
  obtain ⟨hcfg, hturns, hturnNo, hport, f, hf, hrd⟩ := hpass.frame
  obtain ⟨k, hk⟩ := hi.exists_current
  have hne : (markPass v).seq ≠ .wake := fun hw => nomatch hw.symm.trans (hend (by rw [← markPass_seq, hw]; nofun)).1
  have hk' : (markPass v).chans[s.ch]? = some (f k) := by
    rw [markPass_chans, hf]
    exact getElem?_modify_eq_some.mpr ⟨k, hk, (if_pos rfl).symm⟩
  have hrest := hinv.atRest hne hk'
  refine ⟨hcfg, hturns, hturnNo, hport, fun c hc => ?_, k, f k, hk, hk', hrd k hk, hrest.input, hrest.high⟩
  simp [hf, hc.symm]

/-! ## Every cycle ends (R173) -/

theorem lowWait_le (line : Nat → Level) (room p : Nat) : lowWait line room p ≤ p + room := by
  obtain ⟨k, hk, he, -⟩ := lowWait_spec line room p
  omega

theorem highRun_lt {line : Nat → Level} {room p h p' h' : Nat} (he : highRun line room p h = some (p', h')) :
    p' < p + room := by
  induction room generalizing p h with
  | zero => cases he
  | succ room ih =>
    unfold highRun at he
    split at he
    · have := ih he
      omega
    · cases he
      omega

/-- The last tick of a capture in run-length form. -/
def CaptureEnd.tEnd : CaptureEnd → Nat
  | .captured _ e => e
  | .incomplete _ e => e

/-- Each bit takes a low run up to its ceiling and a high run below its own, or ends the capture (R93, R94, R97). -/
theorem captureBits_tEnd_le (line : Nat → Level) (n todo p : Nat) (bits : List Level) :
    (captureBits line (n + 1) todo p bits).tEnd ≤ p + todo * (256 + n) := by
  induction todo generalizing p bits with
  | zero => exact Nat.le_add_right ..
  | succ todo ih =>
    have hlow : lowWait line 256 p ≤ p + 256 := lowWait_le ..
    rw [Nat.succ_mul]
    unfold captureBits
    split
    next =>
      show lowWait line 256 p + (n + 1) - 1 ≤ _
      omega
    next p' h he =>
      have hhigh : p' < lowWait line 256 p + (n + 1) := highRun_lt he
      have hrest := ih p' (bits ++ [classify h])
      omega

/-- Some run from `s` within its round comes to the entry of its SLEEP, by tick `T`. -/
def State.asleepBy (s : State) (T : Nat) : Prop :=
  ∃ n u, runSeq n s = .next u ∧ u.seq = .sleep ∧ u.tmr = 0 ∧ u.sleeps = s.sleeps ∧ u.now ≤ T

theorem State.asleepBy.after {m T : Nat} {s t : State} (h : t.asleepBy T) (hrun : runSeq m s = .next t)
    (hz : t.sleeps = s.sleeps) : s.asleepBy T := by
  obtain ⟨n, u, hu, hseq, htmr, hz', hnow⟩ := h
  exact ⟨m + n, u, (runSeq_add_of_next hrun n).trans hu, hseq, htmr, hz'.trans hz, hnow⟩

theorem asleepBy_of_sleep {s : State} (hs : s.seq = .sleep) (ht : s.tmr = 0) {T : Nat} (hT : s.now ≤ T) : s.asleepBy T :=
  ⟨0, s, rfl, hs, ht, rfl, hT⟩

section
variable {s : State} (hi : s.Inv)
include hi

theorem asleepBy_of_publish (hs : s.seq = .publish) {T : Nat} (hT : s.now ≤ T) : s.asleepBy T := by
  obtain ⟨k, hk⟩ := hi.exists_current
  have hrun : runSeq 1 s = .next (publishStep k s) := runSeq_publish hs (hi.csumOk_of_publish hs) hk 0
  rw [publishStep_writes] at hrun
  refine State.asleepBy.after ?_ hrun rfl
  exact asleepBy_of_sleep rfl rfl hT

theorem asleepBy_of_decode (hs : s.seq = .decode) {T : Nat} (hT : s.now ≤ T) : s.asleepBy T := by
  have hrun : runSeq 1 s = .next (decodeStep s) := runSeq_decode hs (hi.capOk_of_decode hs) 0
  have hd := decodeStep_inv hi hs
  refine State.asleepBy.after ?_ hrun (by rw [decodeStep_writes])
  cases hc : checkSumHolds (bytesOf s.raw) with
  | true =>
    rw [decodeStep_of_checkSum hc] at hd ⊢
    exact asleepBy_of_publish hd rfl hT
  | false =>
    rw [decodeStep_of_mismatch hc]
    exact asleepBy_of_sleep rfl rfl hT

/-- From the entry of CAPTURE: the ticks of R173. -/
theorem asleepBy_of_capture (hs : s.seq = .capture) (hp : s.cph = .pre) (hc : s.cnt = 0) (hx : s.idx = 0) {n : Nat}
    (hn : s.cfg.highCeil = some (n + 1)) {T : Nat} (hT : s.now + (4 + 40 * (256 + n) + 1) ≤ T) : s.asleepBy T := by
  have hend := reaches_captureRuns hs (hi.inputReady (by simp [hs])) hn (Nat.succ_pos n) hp hc hx
  have hle : (captureRuns s.lineAhead (n + 1)).tEnd ≤ 4 + 40 * (256 + n) := captureBits_tEnd_le ..
  have hnow : s.now + ((captureRuns s.lineAhead (n + 1)).tEnd + 1) ≤ T := by omega
  cases he : captureRuns s.lineAhead (n + 1) with
  | captured bits e =>
    rw [he] at hend hnow
    obtain ⟨cnt, raw, -, hrun⟩ := hend
    exact (asleepBy_of_decode (runSeq_inv hi hrun) rfl hnow).after hrun rfl
  | incomplete bits e =>
    rw [he] at hend hnow
    obtain ⟨cnt, idx, raw, -, -, hrun⟩ := hend
    exact (asleepBy_of_sleep rfl rfl hnow).after hrun rfl

end

section
variable {s : State} (hi : s.Inv) {n : Nat} (hn : s.cfg.highCeil = some (n + 1))
include hi hn

/-- From the entry of ACK: its two budgets, and a CAPTURE after them. -/
theorem asleepBy_of_ack (hs : s.seq = .ack) (hah : s.ah = false) (hp : s.polls = 0) (ha : s.acnt = 0) {T : Nat}
    (hT : s.now + 510 + (4 + 40 * (256 + n) + 1) ≤ T) : s.asleepBy T := by
  obtain ⟨m, hm, t, hrun, ⟨hnow, hz⟩, -, hend⟩ := ack_ends hs hah hp ha (hi.inputReady (by simp [hs]))
  have hcfg := (runSeq_sameRound hrun hz).1.cfg_eq
  refine State.asleepBy.after ?_ hrun hz
  rcases hend with ⟨u, rfl, -⟩ | ⟨u, rfl, -⟩ | ⟨u, rfl, -⟩
  · exact asleepBy_of_capture (runSeq_inv hi hrun) rfl rfl rfl rfl (hcfg ▸ hn) (by omega)
  · exact asleepBy_of_sleep rfl rfl (by omega)
  · exact asleepBy_of_sleep rfl rfl (by omega)

theorem asleepBy_of_idle (hs : s.seq = .idle) :
    s.asleepBy (s.now + 1 + 20001 + 510 + (4 + 40 * (256 + n) + 1)) := by
  obtain ⟨k, hk⟩ := hi.exists_current
  refine State.asleepBy.after ?_ (runSeq_wakeAll hs hk) rfl
  exact asleepBy_of_ack (wakeAll_inv (idleTick_inv hi hs) rfl) hn rfl rfl rfl rfl (le_refl _)

end

/-- Settles O39: the entry of SLEEP is reached in time, and SLEEP lasts its duration. -/
theorem everyCycleEnds : Obligations.EveryCycleEnds := by
  intro s hi hs hceil
  obtain ⟨n, u, hu, hseq, htmr, hz, hnow⟩ := asleepBy_of_idle hi hceil hs
  have hround := (runSeq_sameRound hu hz).1
  have hlast := passesTo_sleepAll (runSeq_inv hi hu) hseq
  have hd := hround.sleepDuration_eq
  have hpos := sleepDuration_ge s
  refine ⟨_, sleepAll u, ?_, (runSeq_add_of_next hu _).trans hlast.1, rfl, ?_, ?_⟩
  · omega
  · exact (State.passesTo_of_run hu hz hlast).ch_of_idle rfl
  · show u.now + (sleepDuration u - u.tmr) ≤ _
    omega

/-! ## A cycle on a good line (P1 and P3 of 95_test_vectors.md) -/

theorem levelCount_after {line : Nat → Level} {v : Level} {a b : Nat} (hskip : ∀ j < a, line j ≠ v)
    (hrun : ∀ j < b, line (a + j) = v) : levelCount line v (a + b) = b := by
  rw [levelCount_add, levelCount_none hskip, levelCount_all hrun, Nat.zero_add]

/-- An acknowledgement of H30 L66 H61: the low run brings the first half to its 66th low sample, the high run the second to its
61st high one. -/
theorem runSeq_goodAck {s : State} {rest : List Level} (hs : s.seq = .ack) (hah : s.ah = false) (hp : s.polls = 0)
    (ha : s.acnt = 0) (hi : s.inputReady) (hd : s.samples = samplesOf [runHigh 30, runLow 66, runHigh 61] ++ rest) :
    runSeq 157 s = .next (enterCapture { s with
      ah := true, acnt := 61, polls := 61, samples := rest, now := s.now + 157 }) := by
  have hd0 : s.samples.drop 0 = List.replicate 30 Level.high ++ (List.replicate 66 Level.low ++
      (List.replicate 61 Level.high ++ rest)) := hd
  obtain ⟨hskip, hd30⟩ := lineAhead_scriptedRun hd0
  obtain ⟨hlow, hd96⟩ := lineAhead_scriptedRun hd30
  obtain ⟨hhigh, hd157⟩ := lineAhead_scriptedRun hd96
  simp only [Nat.zero_add] at hskip hlow hhigh hd96 hd157
  have hne : ∀ j < 30, s.lineAhead j ≠ Level.low := fun j hj => by rw [hskip j hj]; nofun
  obtain ⟨-, hfirst, -⟩ := ackFirstHalf s _ hs hah hp ha hi rfl
  have hcount95 : levelCount s.lineAhead Level.low (30 + 65) = 65 := levelCount_after hne fun j hj => hlow j (by omega)
  have hcount96 : levelCount s.lineAhead Level.low (30 + 66) = 66 := levelCount_after hne hlow
  have hrun := hfirst 95 (by decide) hcount95 hcount96
  obtain ⟨-, hsecond, -⟩ := ackSecondHalf
    { s with ah := true, polls := 0, acnt := 0, samples := s.samples.drop 96, now := s.now + 96 } _ hs rfl rfl rfl
    (inputReady_congr hi rfl rfl) rfl
  have hline (j : Nat) (hj : j < 61) := (lineAhead_of_sampledBy (s := s)
    (t := { s with ah := true, polls := 0, acnt := 0, samples := s.samples.drop 96, now := s.now + 96 })
    rfl rfl rfl j).trans (hhigh j hj)
  have hrun' := hsecond 60 (by decide) (levelCount_all fun j hj => hline j (by omega)) (levelCount_all hline)
  refine ((runSeq_add_of_next hrun 61).trans hrun').trans ?_
  rw [← hd157, List.drop_drop]
  rfl

/-- Both nominal pulses are counted to their ends, and their low runs are not empty (R83). -/
theorem pulseFits_nominalWidths {p : Params} (hceil : ∀ n, p.highCeil = some n → 70 < n) (v : Level) :
    pulseFits p (nominalWidths v) ∧ 1 ≤ (nominalWidths v).1 := by
  cases v with
  | false => exact ⟨⟨by decide, by decide, fun n hn => lt_trans (by decide) (hceil n hn)⟩, by decide⟩
  | true => exact ⟨⟨by decide, by decide, hceil⟩, by decide⟩

/-- A frame sent with nominal pulses (R83): everything that CAPTURE leaves. -/
theorem runSeq_nominalFrame {s : State} {f : Frame} {skipped rest : List Level} (hs : s.seq = .capture) (hp : s.cph = .pre)
    (hc : s.cnt = 0) (hx : s.idx = 0) (hi : s.inputReady) (hceil : ∀ n, s.cfg.highCeil = some n → 70 < n)
    (hskip : skipped.length = 4) (hd : s.samples = skipped ++ samplesOf (framePulses f) ++ Level.low :: rest) :
    ∃ n cnt, runSeq n s = .next { s with
      seq := .decode, cph := .done, capOk := true, raw := bitsOf f, cnt := cnt, idx := 39, samples := rest, now := s.now + n } := by
  have hfit : ∀ q ∈ (bitsOf f).toList.map nominalWidths, pulseFits s.cfg q ∧ 1 ≤ q.1 :=
    List.forall_mem_map.mpr fun v _ => pulseFits_nominalWidths hceil v
  rw [samplesOf_framePulses] at hd
  obtain ⟨n, t, hrun, -, hbits, ht⟩ := eachHighRunIsOneBit s skipped _ rest hs hp hc hx hi hskip (by simp)
    (fun q hq => (hfit q hq).1) (fun q hq => (hfit q (List.mem_of_mem_tail hq)).2) hd
  have hraw : t.raw = bitsOf f := by
    apply Vector.toList_inj.mp
    rw [hbits, List.map_map]
    exact List.map_id'' decide_nominalWidths _
  exact ⟨n, t.cnt, by rw [hrun, ht, hraw]⟩

/-- Byte `k` of a stream is the `k`-th byte of its frame (R51). -/
theorem byteAt_eq_extract (raw : RawBits) {k : Nat} (hk : k < 5) :
    byteAt raw k = (frameOf raw).extractLsb' (8 * (4 - k)) 8 := by
  apply BitVec.eq_of_getLsbD_eq
  intro i hi
  rw [BitVec.getLsbD_extractLsb', getLsbD_frameOf _ (by omega), getLsbD_byteAt _ _ hi, decide_eq_true hi, Bool.true_and]
  congr 1
  omega

/-- The checksum rule on the frame itself (R112). -/
theorem checkSumHolds_bytesOf_iff (raw : RawBits) : checkSumHolds (bytesOf raw) = true ↔
    (((frameOf raw).extractLsb' 32 8).toNat + ((frameOf raw).extractLsb' 24 8).toNat +
      ((frameOf raw).extractLsb' 16 8).toNat + ((frameOf raw).extractLsb' 8 8).toNat) % 256 =
      ((frameOf raw).extractLsb' 0 8).toNat := by
  have hbyte (k : Nat) (hk : k < 5) := byteAt_eq_extract raw hk
  rw [checkSumHolds_iff, ← hbyte 0 (by decide), ← hbyte 1 (by decide), ← hbyte 2 (by decide), ← hbyte 3 (by decide),
    ← hbyte 4 (by decide)]
  rfl

/-- With a ceiling, one step of CYCLE is the pass to its end, wherever the sequencer's own steps come on the way. -/
theorem execCycle_of_run {s d : State} {m : Nat} (hi : s.Inv) (hs : s.seq = .idle) (hceil : s.cfg.highCeil ≠ none)
    (hrun : runSeq m s = .next d) (hz : d.sleeps = s.sleeps) (hd : d.seq = .decode) :
    exec .cycle s = .next (cycleTail d) ∧ (cycleTail d).seq = .idle ∧ (cycleTail d).ch = nextChannel s := by
  have hdinv := runSeq_inv hi hrun
  obtain ⟨-, hidle⟩ := cycleTail_inv hdinv (.inr (.inl hd))
  have hidle : (cycleTail d).seq = .idle := hidle.resolve_right fun ⟨hc, _⟩ => nomatch hd.symm.trans hc
  obtain ⟨n', hn'⟩ := passesTo_cycleTail hdinv (.inr (.inl hd))
  have hpass := State.passesTo_of_run hrun hz hn'
  obtain ⟨t, ht⟩ := execCycle_completes hi (.inl hs)
  obtain ⟨n, v, hpos, hpass', rfl, hend⟩ := execCycle_passes hi ht
  have hv : v.seq = .idle := by
    by_contra hne
    exact hceil (hpass'.frame.1 ▸ (hend hne).2)
  obtain ⟨-, rfl⟩ := hpass.unique hidle hpass'.awayFor hpos hpass'.1 hv
  exact ⟨by rw [ht, hpass'.markPass_of_idle hv], hv, hpass'.ch_of_idle hv⟩

/-- What the end of a pass shows of its frame. -/
def State.delivery (s : State) : RawBits × List Level × ErrCode × Entry × Option DiagEvent :=
  (s.raw, s.samples, s.err, s.entry, s.diag)

theorem publishStep_delivery (k : Channel) (s : State) : (publishStep k s).delivery = s.delivery := by
  rw [publishStep_writes]
  rfl

theorem sleepAll_delivery (s : State) : (sleepAll s).delivery = s.delivery := rfl

/-- After DECODE nothing moves in what a pass delivers. -/
theorem cycleTail_delivery {d : State} (hi : d.Inv) (hd : d.seq = .decode) :
    (cycleTail d).delivery = (decodeStep d).delivery := by
  rw [cycleTail_of_decode hd]
  rcases decodeStep_seq d with hs | hs
  · obtain ⟨k, hk⟩ := (decodeStep_inv hi hd).exists_current
    rw [cycleTail_of_publish hs hk, sleepAll_delivery, publishStep_delivery]
  · rw [cycleTail_of_sleep hs, sleepAll_delivery]

theorem decodeStep_raw (s : State) : (decodeStep s).raw = s.raw := by rw [decodeStep_writes]
theorem decodeStep_samples (s : State) : (decodeStep s).samples = s.samples := by rw [decodeStep_writes]

section
variable {d : State} (hi : d.Inv) (hd : d.seq = .decode)
include hi hd

/-- DECODE of a good frame: no failure, and the frame's first four bytes as the entry (R115, R131). -/
theorem decodeStep_of_goodFrame (hc : checkSumHolds (bytesOf d.raw) = true) :
    (decodeStep d).err = .none ∧ (decodeStep d).entry = (frameOf d.raw).extractLsb' 8 32 := by
  obtain ⟨t, ht, -, -, -, -, hentry⟩ := entryIsTheFirstFourBytes d hd (hi.capOk_of_decode hd)
  obtain ⟨-, -, rfl⟩ := execDecode_eq_next.mp ht
  exact ⟨(decodeStep_inv hi hd).err_of_publish (by rw [decodeStep_of_checkSum hc]), hentry⟩

/-- DECODE of a bad frame: ChecksumMismatch, and the event with the frame (R115, R183). -/
theorem decodeStep_of_badFrame (hc : checkSumHolds (bytesOf d.raw) = false) : (decodeStep d).err = .checksumMismatch ∧
    ∃ h g, (decodeStep d).diag = some (.checksumMismatch d.ch (frameOf d.raw) (frameOf d.raw) h g) := by
  obtain ⟨t, ht, -, hbad⟩ := decodeTransfersControl d hd (hi.capOk_of_decode hd)
  obtain ⟨-, -, rfl⟩ := execDecode_eq_next.mp ht
  obtain ⟨-, -, herr, hdiag, -⟩ := hbad ((decodeStep_csumOk d).trans hc)
  exact ⟨herr, _, _, hdiag⟩

end

theorem samplesOf_append (rs rs' : List Run) : samplesOf (rs ++ rs') = samplesOf rs ++ samplesOf rs' :=
  List.flatMap_append

/-- On a good line the pass comes to DECODE with the frame in `RAW`. -/
theorem runSeq_goodLine {s : State} {f : Frame} {rest : List Level} (hi : s.Inv) (hs : s.seq = .idle)
    (hceil : s.cfg.highCeil = some 256)
    (hd : s.samples = samplesOf ([runHigh 30, runLow 66, runHigh 61, runLow 4] ++ framePulses f ++ [runLow 1]) ++ rest) :
    ∃ n d, runSeq n s = .next d ∧ d.sleeps = s.sleeps ∧ d.seq = .decode ∧ d.raw = bitsOf f ∧ d.samples = rest := by
  obtain ⟨k, hk⟩ := hi.exists_current
  have hwake := wakeAll_inv (idleTick_inv hi hs) rfl
  have hinput : (wakeAll (idleTick s)).inputReady := hwake.inputReady nofun
  have hruns : [runHigh 30, runLow 66, runHigh 61, runLow 4] ++ framePulses f ++ [runLow 1] =
      [runHigh 30, runLow 66, runHigh 61] ++ ([runLow 4] ++ framePulses f ++ [runLow 1]) := rfl
  rw [hruns, samplesOf_append, samplesOf_append, samplesOf_append, List.append_assoc, List.append_assoc] at hd
  have hack := runSeq_goodAck (s := wakeAll (idleTick s)) rfl rfl rfl rfl hinput hd
  obtain ⟨n, cnt, hcap⟩ := runSeq_nominalFrame (f := f) (rest := rest) (skipped := samplesOf [runLow 4])
    (s := enterCapture { wakeAll (idleTick s) with
      ah := true, acnt := 61, polls := 61
      samples := samplesOf [runLow 4] ++ samplesOf (framePulses f) ++ (samplesOf [runLow 1] ++ rest)
      now := (wakeAll (idleTick s)).now + 157 })
    rfl rfl rfl rfl (inputReady_congr hinput rfl rfl)
    (fun n hn => by rw [← Option.some.inj (hceil.symm.trans hn)]; decide) rfl rfl
  have hrun := (runSeq_add_of_next (runSeq_wakeAll hs hk) _).trans ((runSeq_add_of_next hack n).trans hcap)
  exact ⟨_, _, hrun, rfl, rfl, rfl, rfl⟩

/-- The queue after a pass that has not failed, by the room it had before (R131, R132). -/
theorem queueOf_of_published {s t : State} (hi : s.Inv) (hs : s.seq ≠ .sleep) (h : exec .cycle s = .next t)
    (hidle : t.seq = .idle) (herr : t.err = .none) : t.acc = decide ((s.queueOf s.ch).length < 2) ∧
      t.queueOf s.ch = if (s.queueOf s.ch).length < 2 then s.queueOf s.ch ++ [t.entry] else s.queueOf s.ch := by
  obtain ⟨-, -, hstored, hdropped⟩ := failedCycleLeavesTheQueues s t hi h hidle
  cases hacc : t.acc with
  | true =>
    have hq := hstored herr hs hacc
    have hle := t.length_queueOf_le s.ch
    rw [hq, List.length_append, List.length_singleton] at hle
    have hroom : (s.queueOf s.ch).length < 2 := by omega
    exact ⟨(decide_eq_true hroom).symm, hq.trans (if_pos hroom).symm⟩
  | false =>
    obtain ⟨hq, hfull⟩ := hdropped herr hs hacc
    exact ⟨(decide_eq_false hfull.not_lt).symm, hq.trans (if_neg hfull.not_lt).symm⟩

/-- Settles O42: the pass comes to DECODE with `f`, and ends by its checksum; what becomes of the queue is O40. -/
theorem cycleDeliversTheFrame : Obligations.CycleDeliversTheFrame := by
  intro s f rest hi hs hceil hline
  obtain ⟨n, d, hrun, hz, hd, hraw, hrest⟩ := runSeq_goodLine hi hs hceil hline
  have hdinv := runSeq_inv hi hrun
  have hround := (runSeq_sameRound hrun hz).1
  obtain ⟨hcycle, hidle, hch⟩ := execCycle_of_run hi hs (by rw [hceil]; nofun) hrun hz hd
  have hdelivery := cycleTail_delivery hdinv hd
  simp only [State.delivery, Prod.mk.injEq, decodeStep_raw, decodeStep_samples] at hdelivery
  obtain ⟨hraw', hsamples, herr, hentry, hdiag⟩ := hdelivery
  have hframe : frameOf d.raw = f := by rw [hraw, frameOf_bitsOf]
  have hsum := checkSumHolds_bytesOf_iff d.raw
  rw [hframe] at hsum
  refine ⟨_, hcycle, hidle, hch, hsamples.trans hrest, by rw [hraw', hframe], fun hgood => ?_, fun hbad => ?_⟩
  · obtain ⟨herr', hentry'⟩ := decodeStep_of_goodFrame hdinv hd (hsum.mpr hgood)
    obtain ⟨hacc, hq⟩ := queueOf_of_published hi (by simp [hs]) hcycle hidle (herr.trans herr')
    rw [hentry, hentry', hframe] at hq
    exact ⟨by rw [State.cycleResult, herr, herr', hacc], hq⟩
  · obtain ⟨herr', h, g, hdiag'⟩ := decodeStep_of_badFrame hdinv hd (Bool.eq_false_iff.mpr (mt hsum.mp hbad))
    obtain ⟨hqueues, -⟩ := failedCycleLeavesTheQueues s _ hi hcycle hidle
    refine ⟨by rw [State.cycleResult, herr, herr'], hqueues (.inl (by rw [herr, herr']; nofun)) s.ch, h, g, ?_⟩
    rw [hdiag, hdiag', hframe, hround.ch_eq]

end Sys2Proof.Machine
end

section
/-! SUPPORT. Proofs of the family `60_exceptions`: the three failures are all that a step of the sequencer raises, and what the output
ports show. -/

namespace Sys2Proof.Machine

/-! ## Steps that raise nothing, and steps that raise a failure (R180 to R184, R187) -/

/-- From `s` to `t` no failure was raised: neither an event nor a change of `ERR`. -/
def State.quietTo (s t : State) : Prop := t.diag = s.diag ∧ t.err = s.err

theorem wakeTick_quiet (s : State) : s.quietTo (wakeTick s) := by
  rw [wakeTick_writes]
  exact ⟨rfl, rfl⟩

theorem publishStep_quiet (k : Channel) (s : State) : s.quietTo (publishStep k s) := by
  rw [publishStep_writes]
  exact ⟨rfl, rfl⟩

theorem sleepTick_quiet (s : State) : s.quietTo (sleepTick s) := by
  rw [sleepTick_writes]
  exact ⟨rfl, rfl⟩

/-- ACK raises AcknowledgeTimeout at the last poll of a half, and where that poll passes the half, nothing (R164, R187). -/
theorem ackTick_quiet_or_raises (s : State) : s.quietTo (ackTick s) ∨
    (s.polls + 1 = 255 ∧ ackTick s = raise (.acknowledgeTimeout s.ch s.ah) { s.polled with ackOk := false }) := by
  rcases lt_or_ge (threshold s.ah) s.polled.acnt.toNat with habove | hbelow
  · rw [ackTick_of_above habove]
    split <;> exact .inl ⟨rfl, rfl⟩
  by_cases hlast : s.polled.polls = 255
  · exact .inr ⟨hlast, ackTick_of_lastPoll hbelow hlast⟩
  · rw [ackTick_of_poll hbelow hlast]
    exact .inl ⟨rfl, rfl⟩

theorem countHigh_quiet_or_raises (h : Nat) (s : State) : s.quietTo (countHigh h s) ∨
    countHigh h s = raise (.incompleteCapture s.ch s.idx) { s with cph := .fail, capOk := false } := by
  by_cases hceil : s.cfg.highCeil = some h
  · exact .inr (countHigh_of_eq hceil)
  · rw [countHigh_of_ne hceil]
    exact .inl ⟨rfl, rfl⟩

theorem storeBit_quiet (s : State) : s.quietTo (storeBit s) := by
  unfold storeBit
  split <;> exact ⟨rfl, rfl⟩

/-- CAPTURE raises IncompleteCapture where a high count reaches its ceiling, and nothing on any other tick (R97, R99). -/
theorem captureTick_quiet_or_fails (s : State) : s.quietTo (captureTick s) ∨ captureFails s (captureTick s) := by
  cases hp : s.cph with
  | pre =>
    rw [captureTick_of_pre hp]
    split <;> exact .inl ⟨rfl, rfl⟩
  | low =>
    rw [captureTick_of_low hp]
    split
    · exact countHigh_quiet_or_raises 1 s.sampled
    split <;> exact .inl ⟨rfl, rfl⟩
  | high =>
    rw [captureTick_of_high hp]
    split
    · exact countHigh_quiet_or_raises (s.cnt + 1) s.sampled
    · exact .inl (storeBit_quiet s.sampled)
  | idle | done | fail =>
    rw [captureTick_of_stopped (by simp [hp])]
    exact .inl ⟨rfl, rfl⟩

/-- DECODE raises ChecksumMismatch, with what it has just decoded, where the checksum fails, and nothing where it holds (R115). -/
theorem decodeStep_quiet_or_raises (s : State) : s.quietTo (decodeStep s) ∨
    ((decodeStep s).csumOk = false ∧ decodeStep s = raise (mismatchEvent (decodeFrame s)) (decodeFrame s)) := by
  cases hc : checkSumHolds (bytesOf s.raw) with
  | true =>
    rw [decodeStep_of_checkSum hc]
    exact .inl ⟨rfl, rfl⟩
  | false => exact .inr ⟨(decodeStep_csumOk s).trans hc, decodeStep_of_mismatch hc⟩

/-- Settles O43: by the operation of the phase; only those of ACK, CAPTURE and DECODE can raise, and `raise` says what it writes. -/
theorem onlyThreeFailures : Obligations.OnlyThreeFailures := by
  intro s t h
  have hquiet {u : State} (hu : s.quietTo u) : u.diag = s.diag ∧ (u.err = s.err ∨ (s.seq = .idle ∧ u.err = .none)) :=
    ⟨hu.1, .inl hu.2⟩
  rcases exec_seq_cases h with ⟨hs, -, rfl⟩ | ⟨-, -, rfl⟩ | ⟨hs, -, rfl⟩ | ⟨hs, -, rfl⟩ | ⟨hs, -, rfl⟩ |
    ⟨-, -, k, -, rfl⟩ | ⟨-, rfl⟩
  · exact .inl ⟨rfl, .inr ⟨hs, rfl⟩⟩
  · exact .inl (hquiet (wakeTick_quiet s))
  · rcases ackTick_quiet_or_raises s with hu | ⟨hlast, hraise⟩
    · exact .inl (hquiet hu)
    · rw [hraise]
      exact .inr ⟨rfl, rfl, rfl, rfl, .inl ⟨hs, hlast, rfl, rfl, rfl⟩⟩
  · rcases captureTick_quiet_or_fails s with hu | hfail
    · exact .inl (hquiet hu)
    · rw [hfail]
      exact .inr ⟨rfl, rfl, rfl, rfl, .inr (.inl ⟨hs, rfl, rfl, rfl, rfl⟩)⟩
  · rcases decodeStep_quiet_or_raises s with hu | ⟨hsum, hraise⟩
    · exact .inl (hquiet hu)
    · rw [hraise] at hsum ⊢
      exact .inr ⟨rfl, rfl, rfl, rfl, .inr (.inr ⟨hs, hsum, rfl, rfl⟩)⟩
  · exact .inl (hquiet (publishStep_quiet k s))
  · exact .inl (hquiet (sleepTick_quiet s))

/-! ## The output ports (R186, R201) -/

/-- The line ports show the registers of each channel in its place (R22, R201). -/
theorem ports_lines {s : State} {c : Nat} {k : Channel} (h : s.chans[c]? = some k) :
    s.ports.lineOut[c]? = some k.out ∧ s.ports.lineOe[c]? = some k.oe :=
  ⟨List.getElem?_map.trans (congrArg _ h), List.getElem?_map.trans (congrArg _ h)⟩

theorem diag_eq_none_iff_ports_diagValid (s : State) : s.diag = none ↔ s.ports.diagValid = false :=
  Option.isSome_eq_false_iff.trans Option.isNone_iff_eq_none |>.symm

/-- The fields of an event on the `diag_*` ports (R186). -/
theorem ports_of_diag {s : State} {ev : DiagEvent} (h : s.diag = some ev) :
    s.ports.diagCh = ev.channel ∧ s.ports.diagKind = ev.kind ∧ s.ports.diagAux = ev.aux ∧
      (s.ports.diagRaw, s.ports.diagBytes) = ev.frames s.turnNo ∧
      (s.ports.diagThc, s.ports.diagSign) = ev.temperature s.turnNo := by
  simp only [State.ports, h, Option.map_some, Option.getD_some, and_self]

theorem acknowledgeTimeout_aux (c : Nat) (half : Bool) :
    (DiagEvent.acknowledgeTimeout c half).aux = if half then 1 else 0 := by
  cases half <;> rfl

/-- Six bits hold every index of a stream of forty bits (R24, R186). -/
theorem toNat_incompleteCapture_aux (c : Nat) (i : Fin 40) : (DiagEvent.incompleteCapture c i).aux.toNat = i.val :=
  Nat.mod_eq_of_lt (by omega)

theorem ports_of_entryRead {s : State} {e : Entry} (h : s.rdPort = some (some e)) :
    s.ports.rdSome = true ∧ s.ports.rdData = e := by
  simp only [State.ports, State.rdSome, State.rdData, h, and_self]

theorem ports_of_nothingRead {s : State} (h : s.rdPort = some none) : s.ports.rdSome = false := by
  simp only [State.ports, State.rdSome, h]

/-- Settles O44: the status ports are the registers; the event by its kind, the entry by the result of the TRY_READ. -/
theorem portsShowTheRegistersAndTheEvent : Obligations.PortsShowTheRegistersAndTheEvent := by
  intro s
  refine ⟨fun c k hk => ports_lines hk, rfl, rfl, rfl, rfl, rfl, rfl, rfl, diag_eq_none_iff_ports_diagValid s, fun c half h => ?_,
    fun c i h => ?_, fun c f b thc g h => ?_, fun e h => ports_of_entryRead h, ports_of_nothingRead⟩
  · obtain ⟨hch, hkind, haux, -, -⟩ := ports_of_diag h
    exact ⟨hch, hkind, haux.trans (acknowledgeTimeout_aux c half)⟩
  · obtain ⟨hch, hkind, haux, -, -⟩ := ports_of_diag h
    exact ⟨hch, hkind, (congrArg BitVec.toNat haux).trans (toNat_incompleteCapture_aux c i)⟩
  · obtain ⟨hch, hkind, haux, hframes, htemp⟩ := ports_of_diag h
    obtain ⟨hraw, hbytes⟩ := Prod.mk.inj hframes
    obtain ⟨hthc, hsign⟩ := Prod.mk.inj htemp
    exact ⟨hch, hkind, haux, hraw, hbytes, hthc, hsign⟩

end Sys2Proof.Machine
end

section
/-! SUPPORT. Proofs of the family `70_reset_and_hazards`: reset in mid-run, the first tick after reset, and two hazards, a
tail of the acknowledgement that is taken for the first bit, and the frame of zeros. -/

namespace Sys2Proof.Machine

/-! ## The tail of the acknowledgement (R220) -/

theorem samplesOf_cons (run : Run) (runs : List Run) :
    samplesOf (run :: runs) = List.replicate run.len run.level ++ samplesOf runs := rfl

theorem pulseSamples_append (qs qs' : List (Nat × Nat)) : pulseSamples (qs ++ qs') = pulseSamples qs ++ pulseSamples qs' := by
  rw [pulseSamples, List.flatMap_append, samplesOf_append]
  rfl

/-- A stream whose first bit is new and whose others are those of `f` one place later, the last one lost: the frame is shifted by one
place, the new bit on top (R50). -/
theorem frameOf_eq_shift {raw : RawBits} {f : Frame} {v w : Level} {bits : List Level} (hf : (bitsOf f).toList = bits ++ [w])
    (hraw : raw.toList = v :: bits) : frameOf raw = (f >>> 1) ||| (if v then 0x8000000000#40 else 0#40) := by
  have hlen : bits.length = 39 := by simpa [hf] using (bitsOf f).length_toList
  have htop : ∀ j, (if v then 0x8000000000#40 else 0#40).getLsbD j = (v && decide (j = 39)) := by
    intro j
    cases v with
    | false => exact BitVec.getLsbD_zero
    | true => exact (BitVec.getLsbD_twoPow 39 j).trans (by simp [eq_comm])
  apply BitVec.eq_of_getLsbD_eq
  intro j hj
  rw [getLsbD_frameOf raw hj, rawAt, hraw, BitVec.getLsbD_or, BitVec.getLsbD_ushiftRight, htop]
  rcases Nat.lt_or_eq_of_le (Nat.le_of_lt_succ hj) with hlt | rfl
  · have hbit : bits.getD (38 - j) false = f.getLsbD (1 + j) := by
      rw [← List.getD_append bits [w] false _ (by omega), ← hf, show 1 + j = 39 - (38 - j) by omega]
      exact rawAt_bitsOf f (by omega)
    rw [show 39 - j = 38 - j + 1 by omega, List.getD_cons_succ, hbit, decide_eq_false hlt.ne, Bool.and_false, Bool.or_false]
  · rw [BitVec.getLsbD_of_ge f _ (by decide)]
    simp

/-- Settles O21: the tail is the high run of a bit-period with an empty low run; the first 39 pulses of the frame follow, and the
last pulse's first low sample ends the capture. -/
theorem acknowledgeTailShiftsTheFrame : Obligations.AcknowledgeTailShiftsTheFrame := by
  intro s f r skipped rest hs hp hc hx hi hceil hskip hr hd
  obtain ⟨bits, w, hf⟩ : ∃ bits w, (bitsOf f).toList = bits ++ [w] :=
    ⟨_, _, (List.dropLast_append_getLast (List.ne_nil_of_length_eq_add_one (bitsOf f).length_toList)).symm⟩
  have hlen : bits.length = 39 := by simpa [hf] using (bitsOf f).length_toList
  have hnominal : ∀ q ∈ bits.map nominalWidths, pulseFits s.cfg q ∧ 1 ≤ q.1 :=
    List.forall_mem_map.mpr fun v _ => pulseFits_nominalWidths (fun n hn => (hceil n hn).1) v
  have htail : pulseFits s.cfg (0, r) := ⟨Nat.zero_le _, hr, fun n hn => (hceil n hn).2⟩
  have hline : samplesOf (runHigh r :: framePulses f) =
      pulseSamples ((0, r) :: bits.map nominalWidths) ++ pulseSamples [nominalWidths w] := by
    rw [← pulseSamples_append, List.cons_append, ← List.map_singleton, ← List.map_append, ← hf, pulseSamples_cons,
      ← samplesOf_framePulses, samplesOf_cons]
    exact (List.nil_append _).symm
  have hend : pulseSamples [nominalWidths w] = Level.low :: (pulseSamples [nominalWidths w]).tail := rfl
  rw [hline, hend, List.append_assoc, List.append_assoc, List.cons_append, ← List.append_assoc] at hd
  obtain ⟨n, t, hrun, -, hbits, ht⟩ := eachHighRunIsOneBit s skipped _ _ hs hp hc hx hi hskip (by simp [hlen])
    (List.forall_mem_cons.mpr ⟨htail, fun q hq => (hnominal q hq).1⟩) (fun q hq => (hnominal q hq).2) hd
  have hraw : t.raw.toList = decide (30 < r) :: bits := by
    rw [hbits, List.map_cons, List.map_map]
    exact congrArg _ (List.map_id'' decide_nominalWidths _)
  refine ⟨n, t, hrun, by rw [ht], by rw [ht], ?_⟩
  simpa only [decide_eq_true_eq] using frameOf_eq_shift hf hraw

/-! ## The frame of zeros (R222) -/

/-- Settles O29: the bytes and the sum of the zeros are zero, and so is the entry. -/
theorem zeroFrameIsPublished : Obligations.ZeroFrameIsPublished := by
  intro s k hs hc hraw hk hw hroom
  obtain ⟨t, hdecode, -, -, -, -, hentry⟩ := entryIsTheFirstFourBytes s hs hc
  have hsum : checkSumHolds (bytesOf s.raw) = true := by rw [hraw]; decide
  have hzero : t.entry = 0 := by rw [hentry, hraw]; decide
  obtain ⟨-, -, ht⟩ := execDecode_eq_next.mp hdecode
  have hcsum : t.csumOk = true := by rw [ht, decodeStep_csumOk, hsum]
  have hch : t.ch = s.ch := by rw [ht, decodeStep_ch]
  have hk' : t.chans[t.ch]? = some k := by rwa [hch, ht, decodeStep_chans]
  rw [decodeStep_of_checkSum hsum] at ht
  have hseq : t.seq = .publish := by rw [ht]
  have herr : t.err = s.err := by rw [ht]; rfl
  obtain ⟨k', hpublish, hqueue, -⟩ := (publishAppendsOrDrops t k hseq hcsum hk' hw).1 hroom
  have hqueue : k'.queue = k.queue ++ [0] := hzero ▸ hqueue
  refine ⟨t, _, hdecode, hseq, hpublish, ?_, rfl, herr⟩
  rw [← hqueue, ← hch]
  exact State.queueOf_of (List.getElem?_set_self (List.getElem?_eq_some_iff.mp hk').1)

/-! ## Reset in mid-run, and the first tick after reset (R210, R211) -/

theorem State.afterReset_queueOf (p : Params) (u : Unspecified) (mem : Nat → Vector Entry 2) (c : Nat) :
    (State.afterReset p u mem).queueOf c = [] := by
  cases hk : (State.afterReset p u mem).chans[c]? with
  | none => simp only [State.queueOf, hk]
  | some k =>
    obtain ⟨-, rfl⟩ := State.afterReset_chan_iff.mp hk
    exact State.queueOf_of hk

theorem resetStep_queueOf (s : State) (c : Nat) : (resetStep s).queueOf c = [] :=
  (State.queueOf_congr rfl c).trans (State.afterReset_queueOf s.cfg (freeRegisters s.turnNo) _ c)

/-- Settles O2: the free values of this step are what the unspecified registers hold. -/
theorem resetAbandonsTheCycle : Obligations.ResetAbandonsTheCycle := fun s _ hturn =>
  ⟨freeRegisters (s.turnNo + 1), fun c => Vector.ofFn fun j => Config.freeMem (s.turnNo + 1) c j, _, step_of_scripted hturn,
    rfl, rfl, resetStep_queueOf _⟩

/-- Settles O3: the step is IDLE's, and its entry actions drive the line of channel 0. -/
theorem firstTickWakesChannelZero : Obligations.FirstTickWakesChannelZero := by
  intro p u mem rest v hn
  have hk := State.afterReset_chan_iff (u := u) (mem := mem).mpr ⟨hn, rfl⟩
  exact ⟨_, _, (step_of_scripted rfl).trans ((runTurn_sequencer _).trans (idleEntersWake _ _ rfl hk)), rfl, rfl,
    List.getElem?_set_self (List.getElem?_eq_some_iff.mp hk).1, rfl, rfl, rfl⟩

end Sys2Proof.Machine
end
